-- ==== Sys2Proof/Word.lean ====
section
/-! DEFINITION. The word types of MNEM-CORE. Every register is at most 32 bits wide on the bus (10_state.md R21);
bytes are 8 bits (00_scope.md R8). -/

namespace Sys2Proof

/-- One byte of a byte string, 0..255 (00_scope.md R8). -/
abbrev Byte := BitVec 8

/-- One 32-bit bus datum (10_state.md R21). -/
abbrev Word := BitVec 32

end Sys2Proof
end

