-- ==== Sys2Proof/Syntax.lean ====
section
/-! DEFINITION. The commands of MNEM-CORE: one constructor per row of spec/opcode_table.json (30_encoding.md R82,
R83). -/

namespace Sys2Proof

/-- A command. The two arguments are unsigned integers, never scaled and never sign-extended (30_encoding.md R81);
which of them have an encoding is `Instr.wellFormed`. -/
inductive Instr where
  | nop                  -- R106
  | clear                -- R107
  | checksum             -- R132
  | extract              -- R154
  | encode               -- R155
  | lookup (i : Nat)     -- R175: `i` is a position in IDX
  | rdrom (a : Nat)      -- R176: `a` is a WROM address
deriving DecidableEq, Repr

end Sys2Proof
end

