-- ==== Sys2Proof/WellFormed.lean ====
section
/-! DEFINITION. Which commands can be written as a command word: an argument of 65536 or more cannot be encoded
(30_encoding.md R87), since ARG is 16 bits wide (R80). -/

namespace Sys2Proof

/-- The argument fits ARG (30_encoding.md R80, R87). -/
def Instr.wellFormed : Instr → Bool
  | .nop      => true
  | .clear    => true
  | .checksum => true
  | .extract  => true
  | .encode   => true
  | .lookup i => decide (i < 65536)
  | .rdrom a  => decide (a < 65536)

end Sys2Proof
end

