-- ==== Sys2Proof/Decode.lean ====
section
/-! DEFINITION. The decoder and the encoder of command words (30_encoding.md R80-R85), the decoder total on all 2^32
words and rejecting by name. A command is one 32-bit bus datum (R80), so there is no byte order to choose. -/

namespace Sys2Proof

/-- ARG, bits 31:16 (30_encoding.md R80, R81). -/
def argField (c : Word) : BitVec 16 := c.extractLsb' 16 16

/-- RSV, bits 15:4 (30_encoding.md R80). -/
def rsvField (c : Word) : BitVec 12 := c.extractLsb' 4 12

/-- OP, bits 3:0 (30_encoding.md R80). -/
def opField (c : Word) : BitVec 4 := c.extractLsb' 0 4

/-- Why a command word is illegal: the three conditions of 30_encoding.md R84, in the order in which R85 tests
them. -/
inductive Illegal where
  | reservedBits        -- R84 item 1: RSV is not 0
  | reservedOpcode      -- R84 item 2: OP is 0x7..0xF
  | unexpectedArgument  -- R84 item 3: ARG is not 0 and the operation takes none
deriving DecidableEq, Repr

/-- An operation that takes no argument: ARG must be 0 (30_encoding.md R83, R85). -/
def withoutArgument (i : Instr) (c : Word) : Except Illegal Instr :=
  if argField c = 0 then .ok i else .error .unexpectedArgument

/-- `Decode` of 30_encoding.md R85. -/
def decode (c : Word) : Except Illegal Instr :=
  if rsvField c ≠ 0 then .error .reservedBits
  else if opField c = 0x0 then withoutArgument .nop c
  else if opField c = 0x1 then withoutArgument .clear c
  else if opField c = 0x2 then withoutArgument .checksum c
  else if opField c = 0x3 then withoutArgument .extract c
  else if opField c = 0x4 then withoutArgument .encode c
  else if opField c = 0x5 then .ok (.lookup (argField c).toNat)
  else if opField c = 0x6 then .ok (.rdrom (argField c).toNat)
  else .error .reservedOpcode

/-- The operation code of a command (30_encoding.md R82). -/
def opcode : Instr → BitVec 4
  | .nop      => 0x0
  | .clear    => 0x1
  | .checksum => 0x2
  | .extract  => 0x3
  | .encode   => 0x4
  | .lookup _ => 0x5
  | .rdrom _  => 0x6

/-- The argument of a command, 0 where it takes none (30_encoding.md R81). -/
def argument : Instr → Nat
  | .nop | .clear | .checksum | .extract | .encode => 0
  | .lookup i => i
  | .rdrom a  => a

/-- The command word `(ARG << 16) | OP` of a command (30_encoding.md R80, R83, R87). -/
def encode (i : Instr) : Word :=
  (BitVec.ofNat 32 (argument i) <<< 16) ||| (opcode i).setWidth 32

/-- The command whose word has the low `nbits` bits of `w` and zeros above. -/
def decodeTableWord (nbits w : Nat) : Option Instr :=
  (decode (BitVec.ofNat 32 (w % 2 ^ nbits))).toOption

end Sys2Proof
end

