-- ==== Sys2Proof/Config.lean ====
section
/-! DEFINITION. What an implementation fixes and what the spec leaves free. The parameters of 00_scope.md R6 as plain
data (`Platform`), the platform's own choice of them (`Config.platform`), and the two families of free values of the
model: the latency of a command (40_sequencer.md R105) and what a read of a register that the command in flight may
write returns (70_reset_and_hazards.md R235). None of the three constants has a body: nothing can be proved of a
value of theirs. -/

namespace Sys2Proof

/-- One word table of the WROM (43_wordlist.md R170): its entries in address order, each a byte string, and whether
the platform marks it loaded (`P_WL_LOADED`, 00_scope.md R6). -/
structure WordTable where
  loaded : Bool
  words  : List (List Byte)
deriving DecidableEq, Repr, Inhabited

/-- The parameters of 00_scope.md R6. `P_NLANG` is the number of tables; `P_WROM(l, a)` is entry `a` of table `l`;
`P_REG_BASE` is `256 * regPage`, so it is 256-byte aligned by its form. -/
structure Platform where
  regPage : Nat
  wordMax : Nat
  tables  : List WordTable
deriving DecidableEq, Repr, Inhabited

/-- The platform's choice of the parameters. Open (00_scope.md R6, 93 U11, U12): no value. -/
opaque Config.platform : Platform

/-- The latency of the command issued at draw `n`: how many host moves may pass before its perform step. Any finite
number (40_sequencer.md R105): no value. Log entry 3. -/
opaque Config.latency : Nat → Nat

/-- What the read at draw `n` of a register in the in-flight command's write set returns: an unspecified 32-bit value
(70_reset_and_hazards.md R235): no value. Log entry 4. -/
opaque Config.busyRead : Nat → Word

end Sys2Proof
end

