-- ==== Sys2Proof/Machine/Platform.lean ====
section
/-! DEFINITION. The word ROM and the checks of its tables: what the parameters of 00_scope.md R6 mean
(43_wordlist.md R170-R172), which tables and platforms are well formed (R171), and the platform's boot check, which
marks a table as loaded only if it passed (70_reset_and_hazards.md R233 item 1). -/

namespace Sys2Proof.Machine

/-- The UTF-8 check of R171 item 5 as RFC 3629 defines UTF-8 (PRESUMED, log entry 7). `need` continuation bytes are
still due, and the next of them lies in `lo..hi`. -/
def utf8From : (need lo hi : Nat) → List Byte → Bool
  | need, _, _, [] => need == 0
  | 0, _, _, b :: bs =>
    let n := b.toNat
    if n ≤ 0x7F then utf8From 0 0x80 0xBF bs
    else if 0xC2 ≤ n ∧ n ≤ 0xDF then utf8From 1 0x80 0xBF bs
    else if n = 0xE0 then utf8From 2 0xA0 0xBF bs
    else if n = 0xED then utf8From 2 0x80 0x9F bs
    else if 0xE1 ≤ n ∧ n ≤ 0xEF then utf8From 2 0x80 0xBF bs
    else if n = 0xF0 then utf8From 3 0x90 0xBF bs
    else if 0xF1 ≤ n ∧ n ≤ 0xF3 then utf8From 3 0x80 0xBF bs
    else if n = 0xF4 then utf8From 3 0x80 0x8F bs
    else false
  | need + 1, lo, hi, b :: bs => decide (lo ≤ b.toNat ∧ b.toNat ≤ hi) && utf8From need 0x80 0xBF bs

/-- The byte string is UTF-8 (R171 item 5). -/
def isUtf8 (w : List Byte) : Bool := utf8From 0 0x80 0xBF w

/-- R171 items 3, 4 and 5 for one entry: 1 to `P_WORD_MAX` bytes, no ASCII space, UTF-8. -/
def entryOk (wordMax : Nat) (w : List Byte) : Bool :=
  decide (1 ≤ w.length) && decide (w.length ≤ wordMax) && decide (0x20#8 ∉ w) && isUtf8 w

/-- R171 for a whole table: 2048 entries, pairwise distinct, each well formed. -/
def tableOk (wordMax : Nat) (t : WordTable) : Bool :=
  decide (t.words.length = 2048) && decide t.words.Nodup && t.words.all (entryOk wordMax)

end Sys2Proof.Machine

namespace Sys2Proof

/-- `P_REG_BASE` (00_scope.md R6). -/
def Platform.regBase (p : Platform) : Nat := 256 * p.regPage

/-- `P_NLANG` (00_scope.md R6). -/
def Platform.nLang (p : Platform) : Nat := p.tables.length

/-- `P_WL_LOADED(l)` (00_scope.md R6); false where there is no table `l`. -/
def Platform.wlLoaded (p : Platform) (l : Nat) : Bool := (p.tables[l]?.map WordTable.loaded).getD false

/-- `RomRead(l, a) = P_WROM(l, a)` (43_wordlist.md R172). WLU calls it only for `l < P_NLANG`, `a < 2048` and a
loaded table; outside that domain there is no entry, and the value is the empty string (log entry 18). -/
def Platform.romRead (p : Platform) (l a : Nat) : List Byte :=
  ((p.tables[l]?.map WordTable.words).getD [])[a]?.getD []

/-- The ranges of 00_scope.md R6 and R171 for every loaded table: the platforms that `launch` accepts. -/
def Platform.ok (p : Platform) : Bool :=
  decide (1 ≤ p.nLang ∧ p.nLang ≤ 256) && decide (1 ≤ p.wordMax ∧ p.wordMax ≤ 32) &&
    p.tables.all fun t => !t.loaded || Machine.tableOk p.wordMax t

/-- One table as the boot check leaves it: marked loaded only if it passes R171 (70_reset_and_hazards.md R233). -/
def Platform.checkTable (wordMax : Nat) (t : WordTable) : WordTable :=
  { t with loaded := t.loaded && Machine.tableOk wordMax t }

/-- The platform after its boot check (70_reset_and_hazards.md R233 item 1, 43_wordlist.md R171): a table that fails
its check is marked as not loaded, as R171 asks of the platform; parameters out of the ranges of 00_scope.md R6, which no
platform has, are brought into them. A platform that is already well formed is left as it is. A configuration that has not
made the check and is ill formed is refused by `launch`. Log entry 1. -/
def Platform.checked (p : Platform) : Platform :=
  let wm := max 1 (min 32 p.wordMax)
  let ts := if p.tables = [] then [⟨false, []⟩] else p.tables.take 256
  { p with wordMax := wm, tables := ts.map (Platform.checkTable wm) }

end Sys2Proof
end

