-- ==== Sys2Proof/Machine/State.lean ====
section
/-! DEFINITION. The state of MNEM-CORE (10_state.md R20) as plain data, with the model's own fields after it, the
reasons a step can stop, and the state after reset (70_reset_and_hazards.md R230, R231). -/

namespace Sys2Proof.Machine

/-- The width of a host bus access: 8, 16 or 32 bits (20_memory.md R62). -/
inductive Width where
  | byte
  | half
  | word
deriving DecidableEq, Repr

/-- One move of the host agent (44_host_encoder.md R198): a bus read, a bus write, one poll of the `wait` loop
(30_encoding.md R88), or the assertion of reset. Addresses are byte addresses of the host's space. -/
inductive HostMove where
  | read  (w : Width) (addr : Nat)
  | write (w : Width) (addr : Nat) (v : Word)
  | wait
  | reset
deriving DecidableEq, Repr

/-- What the bus answers to one access of the host: the value read, an acknowledged write, or a bus error
(60_exceptions.md R217). -/
inductive BusReply where
  | data (v : Word)
  | ack
  | busError
deriving DecidableEq, Repr

/-- The state. The first block is 10_state.md R20, one field for each of its lines; the second block is the model's
own (INVENTORY.md, '## State'). -/
@[ext]
structure State where
  len       : Word                       -- LEN, R24
  lang      : BitVec 8                   -- LANG.SEL, R25
  ent       : Vector Word 8              -- ENT0..ENT7, R26
  dig       : Vector Word 8              -- DIG0..DIG7, R27
  cs        : BitVec 8                   -- CSUM.CS, R28
  csLen     : BitVec 4                   -- CSUM.CSLEN, R28
  nWords    : BitVec 5                   -- NWORDS, R29
  idx       : Vector (BitVec 11) 24      -- IDX0..IDX23, R32
  wIdx      : BitVec 11                  -- WIDX, R30
  wLen      : BitVec 6                   -- WLEN, R31
  word      : Vector Word 8              -- WORD0..WORD7, R33
  busy      : Bool                       -- STATUS.BUSY, R23
  done      : Bool                       -- STATUS.DONE, R23
  err       : Bool                       -- STATUS.ERR, R23
  ovr       : Bool                       -- STATUS.OVR, R23
  errCode   : BitVec 4                   -- STATUS.ERRCODE, R23
  csValid   : Bool                       -- STATUS.CS_VALID, R23
  idxValid  : Bool                       -- STATUS.IDX_VALID, R23
  wordValid : Bool                       -- STATUS.WORD_VALID, R23
  pend      : Word                       -- PEND, R35
  cfg       : Platform                   -- the configuration of 00_scope.md R6; log entry 1
  latency   : Nat                        -- host moves the engine still lets pass; log entry 3
  draws     : Nat                        -- where the next free value is drawn; log entries 3, 4
  hostQ     : List HostMove              -- the host's moves to come, first one first; log entry 2
  replies   : List BusReply              -- the bus's answers so far, newest first; log entry 6
deriving DecidableEq, Repr

/-- Why a step can stop with a fault. -/
inductive Fault where
  /-- Raised by a host access whose address lies outside the 256-byte register window (20_memory.md R60): it is not
  an access to this block, and what answers it is the platform's. Safe: the model stops where the host goes on.
  Log entry 9. No command raises it. -/
  | outsideWindow
deriving DecidableEq, Repr

/-- Why a step can be refused. -/
inductive Refusal where
  /-- Raised by `launch`, on a configuration in which a parameter is out of its range or a loaded table breaks
  43_wordlist.md R171: the spec has such a launch refused. No step raises it. Safe. -/
  | illFormedPlatform
  /-- Raised by an arm of `exec` whose command has no meaning in the model yet. No arm does: every command of
  spec/opcode_table.json has its meaning. Safe. -/
  | notModelled (mnemonic : String)
deriving DecidableEq, Repr

/-- The state that reset loads (70_reset_and_hazards.md R230, R231) for a platform: every register and flag 0. The
values of the model's own fields are DESIGN CHOICE, log entry 5. -/
def State.afterReset (cfg : Platform) : State where
  len       := 0
  lang      := 0
  ent       := Vector.replicate 8 0
  dig       := Vector.replicate 8 0
  cs        := 0
  csLen     := 0
  nWords    := 0
  idx       := Vector.replicate 24 0
  wIdx      := 0
  wLen      := 0
  word      := Vector.replicate 8 0
  busy      := false
  done      := false
  err       := false
  ovr       := false
  errCode   := 0
  csValid   := false
  idxValid  := false
  wordValid := false
  pend      := 0
  cfg       := cfg
  latency   := 0
  draws     := 0
  hostQ     := []
  replies   := []

/-- The machine right after reset (R231), on a platform that has made its boot check (R233), so on one that `launch`
accepts. Log entry 1. -/
def State.reset : State := State.afterReset Config.platform.checked

end Sys2Proof.Machine
end

