-- ==== Sys2Proof/Machine/Flags.lean ====
section
/-! DEFINITION. The status flags: the error codes (60_exceptions.md R210), the computed signal WL_READY (10_state.md
R39), the value STATUS reads as (R23), and the invalidation of the valid flags by a write to an input (R40). MNEM-CORE
has no condition codes (R43). -/

namespace Sys2Proof.Machine

/-- The errors of 60_exceptions.md R210. The block never raises `randomSourceFailure`: it is the host's. -/
inductive ErrCode where
  | invalidEntropyLength
  | randomSourceFailure
  | malformedBitLength
  | indexOutOfRange
  | wordlistNotLoaded
  | illegalCommand
  | sequenceError
deriving DecidableEq, Repr

/-- The code of an error in STATUS.ERRCODE (60_exceptions.md R210). -/
def ErrCode.code : ErrCode → BitVec 4
  | .invalidEntropyLength => 0x1
  | .randomSourceFailure  => 0x2
  | .malformedBitLength   => 0x3
  | .indexOutOfRange      => 0x4
  | .wordlistNotLoaded    => 0x5
  | .illegalCommand       => 0x6
  | .sequenceError        => 0x7

/-- `WL_READY = (LANG < P_NLANG) and P_WL_LOADED(LANG)` (10_state.md R39). Computed, never stored. -/
def State.wlReady (s : State) : Bool :=
  decide (s.lang.toNat < s.cfg.nLang) && s.cfg.wlLoaded s.lang.toNat

/-- A one-bit field as a word. -/
def flagBit (b : Bool) : Word := if b then 1 else 0

/-- The value a read of STATUS returns (10_state.md R23, field pseudocode). -/
def State.statusWord (s : State) : Word :=
  (flagBit s.wlReady <<< 11) ||| (flagBit s.wordValid <<< 10) ||| (flagBit s.idxValid <<< 9)
    ||| (flagBit s.csValid <<< 8) ||| (s.errCode.setWidth 32 <<< 4) ||| (flagBit s.ovr <<< 3)
    ||| (flagBit s.err <<< 2) ||| (flagBit s.done <<< 1) ||| flagBit s.busy

/-- What an accepted write to LEN or to any ENTk does to the flags (10_state.md R40). -/
def State.invalidateDerived (s : State) : State := { s with csValid := false, idxValid := false }

/-- What an accepted write to LANG does to the flags (10_state.md R25, R40). -/
def State.invalidateWord (s : State) : State := { s with wordValid := false }

end Sys2Proof.Machine
end

