-- ==== Sys2Proof/Machine/Operands.lean ====
section
/-! DEFINITION. The operands. The host's operands are the registers of the window, named by their offset (10_state.md
section 2, 20_memory.md R62-R63). The commands' operands are implicit registers (30_encoding.md R81); this file gives
the byte strings and integers they are read as: big-endian packing (20_memory.md R68), the entropy bytes
(41_checksum.md R121), and the integer of a byte string (00_scope.md R8). -/

namespace Sys2Proof.Machine

/-- The 64 registers of the window (10_state.md section 2). -/
inductive Reg where
  | cmd
  | status
  | len
  | lang
  | ent (k : Fin 8)
  | dig (k : Fin 8)
  | csum
  | nWords
  | wIdx
  | wLen
  | idx (k : Fin 24)
  | word (k : Fin 8)
  | reserved (k : Fin 8)
deriving DecidableEq, Repr

/-- The byte offset of a register (10_state.md section 2). -/
def Reg.offset : Reg → Nat
  | .cmd        => 0x00
  | .status     => 0x04
  | .len        => 0x08
  | .lang       => 0x0C
  | .ent k      => 0x10 + 4 * k
  | .dig k      => 0x30 + 4 * k
  | .csum       => 0x50
  | .nWords     => 0x54
  | .wIdx       => 0x58
  | .wLen       => 0x5C
  | .idx k      => 0x60 + 4 * k
  | .word k     => 0xC0 + 4 * k
  | .reserved k => 0xE0 + 4 * k

/-- The register number `n` of the window, the one at offset `4 * n` (10_state.md section 2). -/
def Reg.ofNumber (n : Nat) : Option Reg :=
  if n = 0 then some .cmd
  else if n = 1 then some .status
  else if n = 2 then some .len
  else if n = 3 then some .lang
  else if h : 4 ≤ n ∧ n < 12 then some (.ent ⟨n - 4, by omega⟩)
  else if h : 12 ≤ n ∧ n < 20 then some (.dig ⟨n - 12, by omega⟩)
  else if n = 20 then some .csum
  else if n = 21 then some .nWords
  else if n = 22 then some .wIdx
  else if n = 23 then some .wLen
  else if h : 24 ≤ n ∧ n < 48 then some (.idx ⟨n - 24, by omega⟩)
  else if h : 48 ≤ n ∧ n < 56 then some (.word ⟨n - 48, by omega⟩)
  else if h : 56 ≤ n ∧ n < 64 then some (.reserved ⟨n - 56, by omega⟩)
  else none

/-- The register at a byte offset of the window; none where the offset is not a multiple of 4 (20_memory.md R62). -/
def Reg.ofOffset (off : Nat) : Option Reg := if off % 4 = 0 then Reg.ofNumber (off / 4) else none

/-- The byte offset of a host address in the register window; none outside it (20_memory.md R60, R61). -/
def windowOffset (p : Platform) (addr : Nat) : Option Nat :=
  if p.regBase ≤ addr ∧ addr < p.regBase + 256 then some (addr - p.regBase) else none

/-- Byte `j mod 4` of a register of a packed array, counted from the left: bits `[31-8j : 24-8j]` (20_memory.md
R68). -/
def byteOfWord (w : Word) (j : Nat) : Byte := w.extractLsb' (24 - 8 * j) 8

/-- The four bytes of a register, most significant first (20_memory.md R68). -/
def bytesOfWord (w : Word) : List Byte := [byteOfWord w 0, byteOfWord w 1, byteOfWord w 2, byteOfWord w 3]

/-- The 32 bytes of a packed array of eight registers (10_state.md R26, R27, R33). -/
def bytesOfArray (v : Vector Word 8) : List Byte := v.toList.flatMap bytesOfWord

/-- Four bytes as a register, `B0<<24 | B1<<16 | B2<<8 | B3` (10_state.md R26). -/
def wordOfBytes (b0 b1 b2 b3 : Byte) : Word :=
  (b0.setWidth 32 <<< 24) ||| (b1.setWidth 32 <<< 16) ||| (b2.setWidth 32 <<< 8) ||| b3.setWidth 32

/-- Word `k` of a byte string, big-endian, with 0x00 past its end (20_memory.md R68, 43_wordlist.md R174). -/
def wordAt (bs : List Byte) (k : Nat) : Word :=
  wordOfBytes (bs.getD (4 * k) 0) (bs.getD (4 * k + 1) 0) (bs.getD (4 * k + 2) 0) (bs.getD (4 * k + 3) 0)

/-- A byte string of at most 32 bytes packed big-endian into eight registers, zero-padded (20_memory.md R68). -/
def packBytes (bs : List Byte) : Vector Word 8 := Vector.ofFn fun k => wordAt bs k

/-- `int_be(B)`, the big-endian integer of a byte string (00_scope.md R8). -/
def intBE : List Byte → Nat
  | [] => 0
  | b :: bs => b.toNat * 2 ^ (8 * bs.length) + intBE bs

/-- `bytes_be(v, n)`, the inverse of `int_be` for `v < 2^(8n)` (00_scope.md R8). -/
def bytesBE (v : Nat) : Nat → List Byte
  | 0 => []
  | n + 1 => BitVec.ofNat 8 (v / 2 ^ (8 * n)) :: bytesBE v n

/-- `ValidLen(L)` (41_checksum.md R120). -/
def validLen (l : Word) : Bool := decide (l.toNat % 32 = 0 ∧ 128 ≤ l.toNat ∧ l.toNat ≤ 256)

/-- `EntBytes()`: the first LEN/8 bytes of ENT (41_checksum.md R121). ENT holds 32 bytes, so there are never more
than 32 of them (log entry 11). -/
def State.entBytes (s : State) : List Byte := (bytesOfArray s.ent).take (s.len.toNat / 8)

/-- The value a read of CSUM returns: CSLEN in bits 11:8, CS in bits 7:0 (10_state.md R28). -/
def State.csumWord (s : State) : Word := (s.csLen.setWidth 32 <<< 8) ||| s.cs.setWidth 32

/-- The value a register holds as the bus shows it, its reserved bits 0 (20_memory.md R63, 10_state.md R21): CMD and
the reserved offsets read 0. -/
def State.regValue (s : State) : Reg → Word
  | .cmd        => 0
  | .status     => s.statusWord
  | .len        => s.len
  | .lang       => s.lang.setWidth 32
  | .ent k      => s.ent[k]
  | .dig k      => s.dig[k]
  | .csum       => s.csumWord
  | .nWords     => s.nWords.setWidth 32
  | .wIdx       => s.wIdx.setWidth 32
  | .wLen       => s.wLen.setWidth 32
  | .idx k      => s.idx[k].setWidth 32
  | .word k     => s.word[k]
  | .reserved _ => 0

end Sys2Proof.Machine
end

