-- ==== Sys2Proof/Machine/Ops.lean ====
section
/-! DEFINITION. The shared operations: issuing a command (40_sequencer.md R100), the clearing actions (R108, R109),
raising an error and completing a command (60_exceptions.md R211, 40_sequencer.md R102), the write sets of
70_reset_and_hazards.md R235, the host's reads and writes of a register (20_memory.md R63, R64), reset, and the launch. -/

namespace Sys2Proof.Machine

/-- What one command's `Exec` gives: the state it leaves, or the error it raises (40_sequencer.md R102). -/
abbrev ExecResult := Except ErrCode State

/-- The assignments of Issue (40_sequencer.md R100). They are also all that there is of a return from an error: the
next issue clears ERR and ERRCODE (60_exceptions.md R215, R219). -/
def State.latch (s : State) (v : Word) : State :=
  { s with pend := v, busy := true, done := false, err := false, errCode := 0 }

/-- Issue with the latency that the engine will take, a free value (40_sequencer.md R100, R105; log entry 3). -/
def State.issue (s : State) (v : Word) : State :=
  { s.latch v with latency := Config.latency s.draws, draws := s.draws + 1 }

/-- `ClearDerived()` (40_sequencer.md R108). -/
def State.clearDerived (s : State) : State :=
  { s with
    dig := Vector.replicate 8 0, cs := 0, csLen := 0, nWords := 0, idx := Vector.replicate 24 0,
    csValid := false, idxValid := false }

/-- `ClearWord()` (40_sequencer.md R109). -/
def State.clearWord (s : State) : State :=
  { s with word := Vector.replicate 8 0, wLen := 0, wIdx := 0, wordValid := false }

/-- The perform step of a command that succeeded (40_sequencer.md R102). -/
def State.complete (s : State) : State := { s with busy := false, done := true }

/-- Taking an error (60_exceptions.md R211, 40_sequencer.md R102): `Fail(op)`, given as `fail`, applied to the state
as it was before the perform step, then ERR and ERRCODE together with BUSY and DONE. -/
def State.raiseError (s : State) (fail : State → State) (e : ErrCode) : State :=
  { (fail s).complete with err := true, errCode := e.code }

/-- The end of a perform step (40_sequencer.md R102): complete what `Exec` left, or take the error it raised, which
discards every write made before the raise (60_exceptions.md R211). -/
def State.finish (s : State) (fail : State → State) : ExecResult → State
  | .ok t => t.complete
  | .error e => s.raiseError fail e

/-- `Fail` of an illegal word: nothing (60_exceptions.md R214). -/
def noFail (s : State) : State := s

/-- The write set `Wset(op)` of 70_reset_and_hazards.md R235, for the decoded PEND. -/
def inWriteSet (op : Except Illegal Instr) : Reg → Bool
  | .ent _ => match op with
    | .ok .clear => true
    | _ => false
  | .dig _ | .csum | .nWords | .idx _ => match op with
    | .ok .clear | .ok .checksum | .ok .extract | .ok .encode => true
    | _ => false
  | .wIdx | .wLen | .word _ => match op with
    | .ok .clear | .ok (.lookup _) | .ok (.rdrom _) => true
    | _ => false
  | .cmd | .status | .len | .lang | .reserved _ => false

/-- A host read of a register (20_memory.md R63): the value it holds, or, while BUSY and in the in-flight command's
write set, an unspecified value, fresh at every read (70_reset_and_hazards.md R235; log entry 4). Nothing of the block
changes (R66). -/
def State.busRead (s : State) (r : Reg) : Word × State :=
  if s.busy && inWriteSet (decode s.pend) r then
    (Config.busyRead s.draws, { s with draws := s.draws + 1 })
  else (s.regValue r, s)

/-- A write that is refused because BUSY = 1: it sets OVR and changes nothing else (40_sequencer.md R101). -/
def State.dropWrite (s : State) : State := { s with ovr := true }

/-- A host write of a register (20_memory.md R64). -/
def State.busWrite (s : State) (r : Reg) (v : Word) : State :=
  match r with
  | .cmd    => if s.busy then s.dropWrite else s.issue v
  | .status => if v.getLsbD 3 then { s with ovr := false } else s
  | .len    => if s.busy then s.dropWrite else { s with len := v }.invalidateDerived
  | .lang   => if s.busy then s.dropWrite else { s with lang := v.setWidth 8 }.invalidateWord
  | .ent k  => if s.busy then s.dropWrite else { s with ent := s.ent.set k v }.invalidateDerived
  | .dig _ | .csum | .nWords | .wIdx | .wLen | .idx _ | .word _ | .reserved _ => s

/-- Reset of the running block (70_reset_and_hazards.md R230): every register and flag as after reset, the command in
flight abandoned. The configuration and the host's own part are not the block's and stay (log entry 16). -/
def State.resetBlock (s : State) : State :=
  { State.afterReset s.cfg with draws := s.draws, hostQ := s.hostQ, replies := s.replies }

/-- Launching the model on a configuration: an ill-formed one is refused (43_wordlist.md R171), any other starts in the
state after reset (70_reset_and_hazards.md R231, R233). Log entry 1. -/
def launch (p : Platform) : Host.Outcome State Fault Refusal :=
  if p.ok then .next (State.afterReset p) else .refused .illFormedPlatform

end Sys2Proof.Machine
end

