-- ==== Sys2Proof/Machine/Bus.lean ====
section
/-! DEFINITION. The host agent's moves on the bus (44_host_encoder.md R198, 20_memory.md R62-R66, 30_encoding.md R88):
which register an access reaches, the bus error response, and what each move does. -/

namespace Sys2Proof.Machine

/-- The register an access reaches: only a 32-bit access at an offset that is a multiple of 4 reaches one (20_memory.md
R62). -/
def accessReg (w : Width) (off : Nat) : Option Reg :=
  match w with
  | .word => Reg.ofOffset off
  | .half | .byte => none

/-- The bus answers the host (log entry 6). -/
def State.reply (s : State) (r : BusReply) : State := { s with replies := r :: s.replies }

/-- A bus read at an offset of the window: the value of the register, or a bus error with no effect (20_memory.md R62,
R63, 60_exceptions.md R217). -/
def State.readAt (s : State) (w : Width) (off : Nat) : State :=
  match accessReg w off with
  | some r => (s.busRead r).2.reply (.data (s.busRead r).1)
  | none => s.reply .busError

/-- A bus write at an offset of the window: the write of the register, or a bus error with no effect (20_memory.md R62,
R64, 60_exceptions.md R217). -/
def State.writeAt (s : State) (w : Width) (off : Nat) (v : Word) : State :=
  match accessReg w off with
  | some r => (s.busWrite r v).reply .ack
  | none => s.reply .busError

/-- One poll of `wait` (30_encoding.md R88): a read of STATUS; while it shows BUSY, the host polls again. -/
def State.poll (s : State) : State :=
  { s.reply (.data s.statusWord) with hostQ := if s.busy then .wait :: s.hostQ else s.hostQ }

/-- One move of the host, already taken off its queue (44_host_encoder.md R198). An address outside the register
window is no access to this block (log entry 9). -/
def hostMove (m : HostMove) (s : State) : Host.Outcome State Fault Refusal :=
  match m with
  | .read w addr =>
    match windowOffset s.cfg addr with
    | some off => .next (s.readAt w off)
    | none => .fault .outsideWindow
  | .write w addr v =>
    match windowOffset s.cfg addr with
    | some off => .next (s.writeAt w off v)
    | none => .fault .outsideWindow
  | .wait => .next s.poll
  | .reset => .next s.resetBlock

/-- The host's turn: its next move, which uses up one move of the engine's latency. A host with no move left leaves
the block as it is (60_exceptions.md R223; log entry 8). -/
def hostStep (s : State) : Host.Outcome State Fault Refusal :=
  match s.hostQ with
  | [] => .next s
  | m :: rest => hostMove m { s with hostQ := rest, latency := s.latency - 1 }

end Sys2Proof.Machine
end

