-- ==== Sys2Proof/Machine/Sequencer.lean ====
section
/-! DEFINITION. The sequencer's own commands: NOP and CLEAR (40_sequencer.md R106, R107), and the perform step of an
illegal word (R103). -/

namespace Sys2Proof.Machine

/-- `Exec(NOP)`: no state written (40_sequencer.md R106). -/
def nopBody (s : State) : ExecResult := .ok s

/-- NOP (40_sequencer.md R106). It never fails (60_exceptions.md R214). -/
def execNop (s : State) : Host.Outcome State Fault Refusal := .next (s.finish noFail (nopBody s))

/-- `Exec(CLEAR)` (40_sequencer.md R107): ENT, every derived value and the word read become 0; LEN, LANG and OVR are
kept. -/
def clearBody (s : State) : ExecResult := .ok { s with ent := Vector.replicate 8 0 }.clearDerived.clearWord

/-- CLEAR (40_sequencer.md R107). It never fails (60_exceptions.md R214). -/
def execClear (s : State) : Host.Outcome State Fault Refusal := .next (s.finish noFail (clearBody s))

/-- The perform step of an illegal word (40_sequencer.md R103): `raise IllegalCommand`, with an empty `Fail`. Which of
the three conditions of 30_encoding.md R84 made it illegal does not matter. -/
def performIllegal (_why : Illegal) (s : State) : Host.Outcome State Fault Refusal :=
  .next (s.finish noFail (.error .illegalCommand))

end Sys2Proof.Machine
end

