-- ==== Sys2Proof/Machine/Sha256.lean ====
section
/-! DEFINITION. SHA-256 in the single-block form of 41_checksum.md R123-R129, for messages of at most 55 bytes: the
digest function of CSX (92 D7; log entry 17). -/

namespace Sys2Proof.Machine

/-- `ROTR(x, n)` (41_checksum.md R125). -/
def rotr (x : Word) (n : Nat) : Word := (x >>> n) ||| (x <<< (32 - n))

/-- `Ch(x, y, z)` (R125). -/
def ch (x y z : Word) : Word := (x &&& y) ^^^ (~~~x &&& z)

/-- `Maj(x, y, z)` (R125). -/
def maj (x y z : Word) : Word := (x &&& y) ^^^ (x &&& z) ^^^ (y &&& z)

/-- `Σ0` (R125). -/
def bigSigma0 (x : Word) : Word := rotr x 2 ^^^ rotr x 13 ^^^ rotr x 22

/-- `Σ1` (R125). -/
def bigSigma1 (x : Word) : Word := rotr x 6 ^^^ rotr x 11 ^^^ rotr x 25

/-- `σ0` (R125). -/
def smallSigma0 (x : Word) : Word := rotr x 7 ^^^ rotr x 18 ^^^ (x >>> 3)

/-- `σ1` (R125). -/
def smallSigma1 (x : Word) : Word := rotr x 17 ^^^ rotr x 19 ^^^ (x >>> 10)

/-- `Pad(B)` for `len(B) ≤ 55` (41_checksum.md R124). -/
def sha256Pad (bs : List Byte) : List Byte :=
  bs ++ [0x80] ++ List.replicate (55 - bs.length) 0 ++ bytesBE (8 * bs.length) 8

/-- The block `M[0..15]` (41_checksum.md R124). -/
def sha256Block (bs : List Byte) : List Word := (List.range 16).map (wordAt (sha256Pad bs))

/-- One more word of the message schedule: `W[t]` for `t = w.length` (41_checksum.md R126). -/
def scheduleStep (w : List Word) : List Word :=
  let t := w.length
  w ++ [smallSigma1 (w.getD (t - 2) 0) + w.getD (t - 7) 0 + smallSigma0 (w.getD (t - 15) 0) + w.getD (t - 16) 0]

/-- `n` more words of the message schedule (41_checksum.md R126). -/
def scheduleMore : Nat → List Word → List Word
  | 0, w => w
  | n + 1, w => scheduleMore n (scheduleStep w)

/-- `W[0..63]` of a block (41_checksum.md R126). -/
def messageSchedule (m : List Word) : List Word := scheduleMore 48 m

/-- The eight working variables of the compression, and the eight words of a hash value (41_checksum.md R127). -/
structure WorkVars where
  a : Word
  b : Word
  c : Word
  d : Word
  e : Word
  f : Word
  g : Word
  h : Word
deriving DecidableEq, Repr

/-- The eight words in order. -/
def WorkVars.toList (v : WorkVars) : List Word := [v.a, v.b, v.c, v.d, v.e, v.f, v.g, v.h]

/-- The initial hash value `H0` (41_checksum.md R128). -/
def sha256H0 : WorkVars :=
  ⟨0x6a09e667, 0xbb67ae85, 0x3c6ef372, 0xa54ff53a, 0x510e527f, 0x9b05688c, 0x1f83d9ab, 0x5be0cd19⟩

/-- The constants `K[0..63]` (41_checksum.md R128). -/
def sha256K : List Word :=
  [0x428a2f98, 0x71374491, 0xb5c0fbcf, 0xe9b5dba5, 0x3956c25b, 0x59f111f1, 0x923f82a4, 0xab1c5ed5] ++
  [0xd807aa98, 0x12835b01, 0x243185be, 0x550c7dc3, 0x72be5d74, 0x80deb1fe, 0x9bdc06a7, 0xc19bf174] ++
  [0xe49b69c1, 0xefbe4786, 0x0fc19dc6, 0x240ca1cc, 0x2de92c6f, 0x4a7484aa, 0x5cb0a9dc, 0x76f988da] ++
  [0x983e5152, 0xa831c66d, 0xb00327c8, 0xbf597fc7, 0xc6e00bf3, 0xd5a79147, 0x06ca6351, 0x14292967] ++
  [0x27b70a85, 0x2e1b2138, 0x4d2c6dfc, 0x53380d13, 0x650a7354, 0x766a0abb, 0x81c2c92e, 0x92722c85] ++
  [0xa2bfe8a1, 0xa81a664b, 0xc24b8b70, 0xc76c51a3, 0xd192e819, 0xd6990624, 0xf40e3585, 0x106aa070] ++
  [0x19a4c116, 0x1e376c08, 0x2748774c, 0x34b0bcb5, 0x391c0cb3, 0x4ed8aa4a, 0x5b9cca4f, 0x682e6ff3] ++
  [0x748f82ee, 0x78a5636f, 0x84c87814, 0x8cc70208, 0x90befffa, 0xa4506ceb, 0xbef9a3f7, 0xc67178f2]

/-- One round of the compression with `(K[t], W[t])` (41_checksum.md R127). -/
def sha256Round (v : WorkVars) (kw : Word × Word) : WorkVars :=
  let t1 := v.h + bigSigma1 v.e + ch v.e v.f v.g + kw.1 + kw.2
  let t2 := bigSigma0 v.a + maj v.a v.b v.c
  ⟨t1 + t2, v.a, v.b, v.c, v.d + t1, v.e, v.f, v.g⟩

/-- The working variables after the first `n` rounds on a block (41_checksum.md R127). -/
def sha256Rounds (n : Nat) (v : WorkVars) (m : List Word) : WorkVars :=
  ((sha256K.zip (messageSchedule m)).take n).foldl sha256Round v

/-- `Compress(H, M)` (41_checksum.md R127). -/
def sha256Compress (v : WorkVars) (m : List Word) : WorkVars :=
  let r := sha256Rounds 64 v m
  ⟨v.a + r.a, v.b + r.b, v.c + r.c, v.d + r.d, v.e + r.e, v.f + r.f, v.g + r.g, v.h + r.h⟩

/-- The words `H'[0..7]` of the digest of a byte string (41_checksum.md R123, R129). -/
def sha256Words (bs : List Byte) : List Word := (sha256Compress sha256H0 (sha256Block bs)).toList

/-- `SHA256(B)`, 32 bytes, for `len(B) ≤ 55` (41_checksum.md R123, R129). -/
def sha256 (bs : List Byte) : List Byte := (sha256Words bs).flatMap bytesOfWord

end Sys2Proof.Machine
end

