-- ==== Sys2Proof/Machine/Checksum.lean ====
section
/-! DEFINITION. CSX, the checksum extractor: the checksum length and its truncation (41_checksum.md R122, R130, R131)
and the command CHECKSUM (R132). -/

namespace Sys2Proof.Machine

/-- `CSLen(L) = L / 32` (41_checksum.md R122). -/
def checksumLen (l : Word) : Nat := l.toNat / 32

/-- `Checksum(D, c) = D[0] >> (8 - c)` (41_checksum.md R130). -/
def checksumBits (d : List Byte) (c : Nat) : BitVec 8 := d.getD 0 0 >>> (8 - c)

/-- The writes of a successful CHECKSUM with checksum length `c` (41_checksum.md R132). -/
def State.writeChecksum (s : State) (c : Nat) : State :=
  { s with
    dig := packBytes (sha256 s.entBytes), cs := checksumBits (sha256 s.entBytes) c, csLen := BitVec.ofNat 4 c,
    csValid := true }

/-- `Exec(CHECKSUM)` (41_checksum.md R132), with the assertion of R131. -/
def checksumBody (s : State) : ExecResult :=
  if validLen s.len then
    if checksumLen s.len ≤ 8 then .ok (s.writeChecksum (checksumLen s.len)) else .error .malformedBitLength
  else .error .invalidEntropyLength

/-- CHECKSUM (41_checksum.md R132). `Fail(CHECKSUM)` = ClearDerived (60_exceptions.md R214). -/
def execChecksum (s : State) : Host.Outcome State Fault Refusal :=
  .next (s.finish State.clearDerived (checksumBody s))

end Sys2Proof.Machine
end

