-- ==== Sys2Proof/Machine/Slicer.lean ====
section
/-! DEFINITION. SLC, the bit concatenation and 11-bit slicer (42_slicer.md R150-R153, R158) and the commands EXTRACT
(R154) and ENCODE (R155). -/

namespace Sys2Proof.Machine

/-- `T = LEN + CSLEN`, the width of the extended bit string (42_slicer.md R150). -/
def State.extendedWidth (s : State) : Nat := s.len.toNat + s.csLen.toNat

/-- `X = Eint * 2^c + cs`, the extended value, always of width T (42_slicer.md R150, 90_conflicts.md C1). -/
def State.extendedValue (s : State) : Nat := intBE s.entBytes * 2 ^ s.csLen.toNat + s.cs.toNat

/-- `Group(X, N, k)` (42_slicer.md R153). -/
def group (x n k : Nat) : BitVec 11 := BitVec.ofNat 11 (x / 2 ^ (11 * (n - 1 - k)) % 2048)

/-- The writes of a successful EXTRACT that makes `n` groups (42_slicer.md R154). -/
def State.writeIndices (s : State) (n : Nat) : State :=
  { s with
    idx := Vector.ofFn fun k => if k.val < n then group s.extendedValue n k.val else 0, nWords := BitVec.ofNat 5 n,
    idxValid := true }

/-- `Exec(EXTRACT)` (42_slicer.md R154), with the checks of R151 and R152. -/
def extractBody (s : State) : ExecResult :=
  if s.csValid then
    if s.csLen.toNat ≤ 8 ∧ s.extendedWidth % 11 = 0 then
      if s.extendedWidth / 11 ≤ 24 then .ok (s.writeIndices (s.extendedWidth / 11))
      else .error .malformedBitLength
    else .error .malformedBitLength
  else .error .sequenceError

/-- EXTRACT (42_slicer.md R154). `Fail(EXTRACT)` = ClearDerived (60_exceptions.md R214). -/
def execExtract (s : State) : Host.Outcome State Fault Refusal :=
  .next (s.finish State.clearDerived (extractBody s))

/-- `Exec(ENCODE)` (42_slicer.md R155): the statements of CHECKSUM, then those of EXTRACT; a raise in either ends the
whole command. -/
def encodeBody (s : State) : ExecResult := (checksumBody s).bind extractBody

/-- ENCODE (42_slicer.md R155). `Fail(ENCODE)` = ClearDerived (60_exceptions.md R214). -/
def execEncode (s : State) : Host.Outcome State Fault Refusal :=
  .next (s.finish State.clearDerived (encodeBody s))

/-- The bit at position `p` of the bit string of a byte string, position 0 on the left (42_slicer.md R158). -/
def bitOfBytes (bs : List Byte) (p : Nat) : Bool := (bs.getD (p / 8) 0).getLsbD (7 - p % 8)

/-- The extended bit string `S` as a bit buffer (42_slicer.md R158): entropy bits, then checksum bits. -/
def State.bufferBit (s : State) (p : Nat) : Bool :=
  if p < s.len.toNat then bitOfBytes s.entBytes p
  else s.cs.getLsbD (s.csLen.toNat - 1 - (p - s.len.toNat))

/-- The 11-bit window `k` of the bit buffer, its first bit most significant (42_slicer.md R158). -/
def State.bufferWindow (s : State) (k : Nat) : Nat :=
  (List.range 11).foldl (fun v j => 2 * v + (s.bufferBit (11 * k + j)).toNat) 0

end Sys2Proof.Machine
end

