-- ==== Sys2Proof/Machine/WordList.lean ====
section
/-! DEFINITION. WLU, the word-list lookup engine: LoadWord (43_wordlist.md R174) and the commands LOOKUP (R175) and
RDROM (R176). -/

namespace Sys2Proof.Machine

/-- `LoadWord(l, a)` with `l = LANG` (43_wordlist.md R173, R174): the entry's bytes zero-padded to 32 and packed
big-endian, its length and its address. -/
def State.loadWord (s : State) (a : BitVec 11) : State :=
  let w := s.cfg.romRead s.lang.toNat a.toNat
  { s with word := packBytes w, wLen := BitVec.ofNat 6 w.length, wIdx := a, wordValid := true }

/-- The last check of LOOKUP and RDROM and the read after it: WLU reads only while WL_READY = 1 (43_wordlist.md R173,
R175, R176). -/
def State.readWord (s : State) (a : BitVec 11) : ExecResult :=
  if s.wlReady then .ok (s.loadWord a) else .error .wordlistNotLoaded

/-- `Exec(LOOKUP i)` (43_wordlist.md R175). `i ≥ 24` is out of range whatever NWORDS holds: IDX has 24 registers
(R175, log entry 10). -/
def lookupBody (i : Nat) (s : State) : ExecResult :=
  if s.idxValid then
    if h : i < s.nWords.toNat ∧ i < 24 then s.readWord s.idx[i] else .error .indexOutOfRange
  else .error .sequenceError

/-- LOOKUP i (43_wordlist.md R175). `Fail(LOOKUP)` = ClearWord (60_exceptions.md R214). -/
def execLookup (i : Nat) (s : State) : Host.Outcome State Fault Refusal :=
  .next (s.finish State.clearWord (lookupBody i s))

/-- `Exec(RDROM a)` (43_wordlist.md R176). -/
def rdromBody (a : Nat) (s : State) : ExecResult :=
  if a < 2048 then s.readWord (BitVec.ofNat 11 a) else .error .indexOutOfRange

/-- RDROM a (43_wordlist.md R176). `Fail(RDROM)` = ClearWord (60_exceptions.md R214). -/
def execRdrom (a : Nat) (s : State) : Host.Outcome State Fault Refusal :=
  .next (s.finish State.clearWord (rdromBody a s))

end Sys2Proof.Machine
end

