-- ==== Sys2Proof/Machine/Dispatch.lean ====
section
/-! DEFINITION. One arm per command (40_sequencer.md R102, the table of `Exec`). -/

namespace Sys2Proof.Machine

def exec (i : Instr) (s : State) : Host.Outcome State Fault Refusal :=
  match i with
  | .nop => Sys2Proof.Machine.execNop s
  | .clear => Sys2Proof.Machine.execClear s
  | .checksum => Sys2Proof.Machine.execChecksum s
  | .extract => Sys2Proof.Machine.execExtract s
  | .encode => Sys2Proof.Machine.execEncode s
  | .lookup k => Sys2Proof.Machine.execLookup k s
  | .rdrom a => Sys2Proof.Machine.execRdrom a s

end Sys2Proof.Machine
end

