-- ==== Sys2Proof/Machine/Perform.lean ====
section
/-! DEFINITION. The engine's step (40_sequencer.md R102), when it is taken (R105), and where a command word lies that
the engine performs next (10_state.md R35). -/

namespace Sys2Proof.Machine

/-- `Perform()` (40_sequencer.md R102): decode PEND and run it. Each meaning of `exec` is `Exec` of its command together
with the completion that R102 puts after it (log entry 12). -/
def perform (s : State) : Host.Outcome State Fault Refusal :=
  match decode s.pend with
  | .ok i => exec i s
  | .error why => performIllegal why s

/-- The engine moves next: it is enabled (BUSY = 1, 40_sequencer.md R102) and its latency is over, or the host has no
move to make before it (R105; log entry 3). -/
def State.engineTurn (s : State) : Bool := s.busy && (s.latency == 0 || s.hostQ.isEmpty)

/-- The state in which the engine performs the command word `v` as its very next step: `v` issued with latency 0, which
40_sequencer.md R105 admits (log entry 13). -/
def State.issueNow (s : State) (v : Word) : State := { s.latch v with latency := 0 }

end Sys2Proof.Machine
end

