-- ==== Sys2Proof/Machine/Step.lean ====
section
/-! DEFINITION. One step of the machine: one perform step of the engine or one move of the host, each indivisible
(20_memory.md R65, R70). -/

namespace Sys2Proof.Machine

/-- One step (40_sequencer.md R102, R105, 20_memory.md R70). -/
def step (s : State) : Host.Outcome State Fault Refusal :=
  if s.engineTurn then perform s else hostStep s

/-- `s` with the command word whose low `nbits` bits are those of `w`, zeros above, issued so that the next step
performs it. MNEM-CORE fetches nothing (10_state.md R42): a command reaches the engine through PEND (log entry 13). -/
def State.withFetchWord (s : State) (nbits w : Nat) : State := s.issueNow (BitVec.ofNat 32 (w % 2 ^ nbits))

end Sys2Proof.Machine
end

