-- ==== Sys2Proof/Machine/HostProgram.lean ====
section
/-! DEFINITION. The host's side: the assembler notation (30_encoding.md R86-R88), a command in its synchronous form
(R88), and the sequence generateMnemonic with its phrase (44_host_encoder.md R190-R195). Log entries 19 and 22. -/

namespace Sys2Proof.Machine

/-- One line of a host program (30_encoding.md R86, R87, R88). `command` is one of the seven command mnemonics, `cmd`
the raw word. -/
inductive AsmOp where
  | wr (r : Reg) (v : Word)
  | rd (r : Reg)
  | command (i : Instr)
  | cmd (v : Word)
  | wait
deriving DecidableEq, Repr

/-- The registers that `wr` may name (30_encoding.md R86). -/
def Reg.writable : Reg → Bool
  | .cmd | .status | .len | .lang | .ent _ => true
  | .dig _ | .csum | .nWords | .wIdx | .wLen | .idx _ | .word _ | .reserved _ => false

/-- The host move a line stands for (30_encoding.md R86, R87): none where the assembler must reject it, an argument of
65536 or more (R87) or a register that `wr` does not name (R86). -/
def assemble (p : Platform) : AsmOp → Option HostMove
  | .wr r v    => if r.writable then some (.write .word (p.regBase + r.offset) v) else none
  | .rd r      => some (.read .word (p.regBase + r.offset))
  | .command i => if i.wellFormed then some (.write .word (p.regBase + Reg.cmd.offset) (encode i)) else none
  | .cmd v     => some (.write .word (p.regBase + Reg.cmd.offset) v)
  | .wait      => some .wait

/-- Go on from the state of an outcome; a stop stays a stop. -/
def andThen {σ τ : Type} (o : Host.Outcome σ Fault Refusal) (f : σ → Host.Outcome τ Fault Refusal) :
    Host.Outcome τ Fault Refusal :=
  match o with
  | .next s => f s
  | .fault r => .fault r
  | .refused r => .refused r

/-- `cmd v; wait`, a command in its synchronous form (30_encoding.md R88): the write to CMD, then the perform step,
then STATUS reads BUSY = 0. -/
def State.command (s : State) (v : Word) : Host.Outcome State Fault Refusal := perform (s.busWrite .cmd v)

/-- What generateMnemonic returns in place of a phrase (44_host_encoder.md R191, R193): an error code of the block, which
the host's own check of the strength uses too (60_exceptions.md R210), or the failure of the host's random source
(R190). -/
inductive HostError where
  | block (code : BitVec 4)
  | randomSourceFailure
deriving DecidableEq, Repr

/-- `STATUS[2]` and `STATUS[7:4]` as the host reads them after a command (44_host_encoder.md R191). -/
def State.reportedError (s : State) : Option HostError :=
  let v := (s.busRead .status).1
  if v.getLsbD 2 then some (.block (v.extractLsb' 4 4)) else none

/-- The first WLEN bytes of WORD0..WORD7 as the host reads them (44_host_encoder.md R191, 20_memory.md R68). -/
def State.readWordBytes (s : State) : List Byte :=
  (bytesOfArray (Vector.ofFn fun k => (s.busRead (.word k)).1)).take (s.busRead .wLen).1.toNat

/-- The writes of ENT0..ENT7 (44_host_encoder.md R190, R191). DESIGN CHOICE: all eight registers are written, with 0 past
a shorter byte string (log entry 19), and of more than 32 bytes, which only a strength above 256 gives, the first 32 are
written and the rest dropped (log entry 24). -/
def State.fillEntropy (s : State) (bytes : List Byte) : State :=
  (List.finRange 8).foldl (fun t k => t.busWrite (.ent k) (wordAt bytes k)) s

/-- The loop of lookups of generateMnemonic over the positions `is` (44_host_encoder.md R191). -/
def lookupWords : List Nat → State → Host.Outcome (State × Except HostError (List (List Byte))) Fault Refusal
  | [], s => .next (s, .ok [])
  | i :: is, s =>
    andThen (s.command (encode (.lookup i))) fun t =>
      match t.reportedError with
      | some e => .next (t, .error e)
      | none => andThen (lookupWords is t) fun ur => .next (ur.1, ur.2.map (t.readWordBytes :: ·))

/-- The words of generateMnemonic for strength `b` (44_host_encoder.md R191). `checkFirst` says whether this host makes
the check of `b` before it draws entropy, which R191 leaves to it. `source n` is the host's random source asked for `n`
bytes; no bytes, or a wrong number of them, is RandomSourceFailure, and then nothing is written to ENT (R190). DESIGN
CHOICE: a host that does not check first and whose source fails returns RandomSourceFailure for an invalid strength too, in
the order of R191 (log entry 23). -/
def generateWords (checkFirst : Bool) (b : Word) (source : Nat → Option (List Byte)) (s : State) :
    Host.Outcome (State × Except HostError (List (List Byte))) Fault Refusal :=
  let s1 := s.busWrite .len b
  if checkFirst && !validLen b then .next (s1, .error (.block ErrCode.invalidEntropyLength.code))
  else match source (b.toNat / 8) with
  | none => .next (s1, .error .randomSourceFailure)
  | some bytes =>
    if bytes.length ≠ b.toNat / 8 then .next (s1, .error .randomSourceFailure)
    else
      andThen ((s1.fillEntropy bytes).command (encode .encode)) fun t =>
        match t.reportedError with
        | some e => .next (t, .error e)
        | none =>
          andThen (lookupWords (List.range (t.busRead .nWords).1.toNat) t) fun ur =>
            match ur.2 with
            | .error e => .next (ur.1, .error e)
            | .ok ws => andThen (ur.1.command (encode .clear)) fun v => .next (v, .ok ws)

/-- `Phrase(w_0, …, w_{n-1})`: the words joined by single ASCII spaces (44_host_encoder.md R192). -/
def phrase (ws : List (List Byte)) : List Byte := [0x20#8].intercalate ws

/-- `generateMnemonic(b)` (44_host_encoder.md R191): the phrase, or the error, unchanged (R193). -/
def generateMnemonic (checkFirst : Bool) (b : Word) (source : Nat → Option (List Byte)) (s : State) :
    Host.Outcome (State × Except HostError (List Byte)) Fault Refusal :=
  andThen (generateWords checkFirst b source s) fun tr => .next (tr.1, tr.2.map phrase)

/-- `generate12WordMnemonic()` (44_host_encoder.md R194). -/
def generate12WordMnemonic (checkFirst : Bool) := generateMnemonic checkFirst 128

/-- `generate24WordMnemonic()` (44_host_encoder.md R194). -/
def generate24WordMnemonic (checkFirst : Bool) := generateMnemonic checkFirst 256

end Sys2Proof.Machine
end

