-- ==== Sys2Proof/Safety.lean ====
section
/-! DEFINITION. What the spec promises of every state of a run, in the terms the statements use: the invariants of
10_state.md R28-R33 and R36-R38, of the error fields (60_exceptions.md R210, R212) and of the configuration
(43_wordlist.md R171); the block without the model's own fields; and reachability. -/

namespace Sys2Proof.Machine

/-- 10_state.md R36. -/
structure CsCertified (s : State) : Prop where
  valid_len : validLen s.len = true
  digest    : s.dig = packBytes (sha256 s.entBytes)
  length    : s.csLen.toNat = s.len.toNat / 32
  bits      : s.cs = checksumBits (sha256 s.entBytes) s.csLen.toNat

/-- 10_state.md R37. -/
structure IdxCertified (s : State) : Prop where
  cs_valid : s.csValid = true
  count    : s.nWords.toNat = (s.len.toNat + s.csLen.toNat) / 11
  groups   : ∀ k : Fin 24, k.val < s.nWords.toNat → s.idx[k] = group s.extendedValue s.nWords.toNat k.val

/-- 10_state.md R38. -/
structure WordCertified (s : State) : Prop where
  ready  : s.wlReady = true
  length : s.wLen.toNat = (s.cfg.romRead s.lang.toNat s.wIdx.toNat).length
  bytes  : s.word = packBytes (s.cfg.romRead s.lang.toNat s.wIdx.toNat)

/-- The invariant of every run from reset. -/
structure Inv (s : State) : Prop where
  /-- The platform the model was launched with is well formed (43_wordlist.md R171). -/
  cfg_ok : s.cfg.ok = true
  /-- From the issue to the perform step DONE, ERR and ERRCODE are clear (40_sequencer.md R100). -/
  busy_clear : s.busy = true → s.done = false ∧ s.err = false ∧ s.errCode = 0
  /-- ERR and ERRCODE go together (60_exceptions.md R210, R215). -/
  err_code : s.err = true ↔ s.errCode ≠ 0
  /-- The codes that are produced: MalformedBitLength and the host's code 2 are not, nor the reserved ones
  (60_exceptions.md R210, R212). -/
  err_produced : s.errCode ∈ [0x0#4, 0x1#4, 0x4#4, 0x5#4, 0x6#4, 0x7#4]
  /-- `CS < 2^CSLEN` (10_state.md R28). -/
  cs_bound : s.cs.toNat < 2 ^ s.csLen.toNat
  /-- The values of NWORDS (10_state.md R29). -/
  nwords : s.nWords ∈ [0#5, 12#5, 15#5, 18#5, 21#5, 24#5]
  /-- IDX from NWORDS on is 0 (10_state.md R32). -/
  idx_tail : ∀ k : Fin 24, s.nWords.toNat ≤ k.val → s.idx[k] = 0
  /-- WLEN is at most P_WORD_MAX, so at most 32 (10_state.md R31). -/
  wlen_bound : s.wLen.toNat ≤ s.cfg.wordMax
  /-- The bytes of WORD from WLEN on are 0 (10_state.md R33). -/
  word_tail : ∀ j < 32, s.wLen.toNat ≤ j → (bytesOfArray s.word).getD j 0 = 0
  cs_certified : s.csValid = true → CsCertified s
  idx_certified : s.idxValid = true → IdxCertified s
  word_certified : s.wordValid = true → WordCertified s

/-- The block alone: the state with the model's own fields, but for the configuration, put back to fixed values. Two
states with the same block hold the same values in every line of 10_state.md R20. -/
def State.block (s : State) : State := { s with latency := 0, draws := 0, hostQ := [], replies := [] }

/-- A run has ended: the host has made its last move and BUSY = 0 (44_host_encoder.md R199). -/
def State.runEnded (s : State) : Prop := s.hostQ = [] ∧ s.busy = false

/-- `n` steps from `s` give `t`, none of them a stop. -/
def RunsTo (n : Nat) (s t : State) : Prop := Host.Core.run Sys2Proof.core n s = .next t

end Sys2Proof.Machine
end

