-- ==== Sys2Proof/Certificates/Slice0/Obligations.lean ====
section
/-! DEFINITION. The statements for the provers, one `def Obligations.<Name> : Prop` each. The rules R<n> are those of
spec/. Where a next state is written as a record update `{ s with … }`, every field it does not name is unchanged: the
frame is part of the statement. -/

open Sys2Proof Sys2Proof.Machine

/-! ## Command words (30_encoding.md) -/

/-- A word decodes to a command exactly when it is that command's encoding and the command is well formed: every bit of a
legal word is accounted for, and no two words share a meaning (30_encoding.md R80-R85, R87). -/
def Obligations.DecodeAndEncodeAgree : Prop :=
  ∀ (w : Word) (i : Instr), decode w = .ok i ↔ i.wellFormed = true ∧ encode i = w

/-- The match and mask table of 30_encoding.md R83, row by row, with the argument each row takes, its worked command
words, and that its rows are disjoint. -/
def Obligations.DecodeFollowsTheCommandTable : Prop :=
  (∀ c : Word,
    (decode c = .ok .nop ↔ c &&& 0xFFFFFFFF = 0x00000000) ∧
    (decode c = .ok .clear ↔ c &&& 0xFFFFFFFF = 0x00000001) ∧
    (decode c = .ok .checksum ↔ c &&& 0xFFFFFFFF = 0x00000002) ∧
    (decode c = .ok .extract ↔ c &&& 0xFFFFFFFF = 0x00000003) ∧
    (decode c = .ok .encode ↔ c &&& 0xFFFFFFFF = 0x00000004) ∧
    (∀ i, decode c = .ok (.lookup i) ↔ c &&& 0x0000FFFF = 0x00000005 ∧ i = (c >>> 16).toNat) ∧
    (∀ a, decode c = .ok (.rdrom a) ↔ c &&& 0x0000FFFF = 0x00000006 ∧ a = (c >>> 16).toNat)) ∧
  List.Pairwise (fun r q : Word × Word => ∀ c : Word, ¬ (c &&& r.2 = r.1 ∧ c &&& q.2 = q.1))
    [(0x00000000, 0xFFFFFFFF), (0x00000001, 0xFFFFFFFF), (0x00000002, 0xFFFFFFFF), (0x00000003, 0xFFFFFFFF),
     (0x00000004, 0xFFFFFFFF), (0x00000005, 0x0000FFFF), (0x00000006, 0x0000FFFF)] ∧
  encode (.lookup 11) = 0x000B0005 ∧ encode (.rdrom 2047) = 0x07FF0006 ∧ encode (.rdrom 2048) = 0x08000006

/-- A command word is illegal exactly in the three cases of 30_encoding.md R84. -/
def Obligations.IllegalWordsAreExactlyThese : Prop :=
  ∀ c : Word, (∃ why, decode c = .error why) ↔
    c.extractLsb' 4 12 ≠ 0 ∨ 0x7 ≤ (c.extractLsb' 0 4).toNat ∨
      ((c.extractLsb' 0 4).toNat ≤ 0x4 ∧ c.extractLsb' 16 16 ≠ 0)

/-- Words written out from the table of 30_encoding.md R83 decode to their commands, one for each row, and one word for
each case of R84 is rejected by its name. -/
def Obligations.WrittenWordsDecode : Prop :=
  decode 0b00000000000000000000000000000000 = .ok .nop ∧
  decode 0b00000000000000000000000000000001 = .ok .clear ∧
  decode 0b00000000000000000000000000000010 = .ok .checksum ∧
  decode 0b00000000000000000000000000000011 = .ok .extract ∧
  decode 0b00000000000000000000000000000100 = .ok .encode ∧
  decode 0b00000000000010110000000000000101 = .ok (.lookup 11) ∧
  decode 0b11111111111111110000000000000101 = .ok (.lookup 65535) ∧
  decode 0b00001000000000000000000000000110 = .ok (.rdrom 2048) ∧
  decode 0b00000000000000000000000000010111 = .error .reservedBits ∧
  decode 0b00000000000000000000000000000111 = .error .reservedOpcode ∧
  decode 0b00000000000000010000000000000100 = .error .unexpectedArgument

/-! ## The step (40_sequencer.md R100-R105) -/

/-- When it is the engine's turn and PEND decodes, the step is that command's meaning at that state, with nothing added
(40_sequencer.md R102). When it is the engine's turn is the model's choice (log entry 3). -/
def Obligations.StepPerformsTheDecodedCommand : Prop :=
  ∀ (s : State) (i : Instr), s.busy = true → (s.latency = 0 ∨ s.hostQ = []) → decode s.pend = .ok i →
    step s = exec i s

/-- When it is the engine's turn and PEND is illegal, the step raises IllegalCommand: only BUSY, DONE, ERR and ERRCODE
change (40_sequencer.md R103). When it is the engine's turn is the model's choice (log entry 3). -/
def Obligations.StepOnAnIllegalWord : Prop :=
  ∀ (s : State) (why : Illegal), s.busy = true → (s.latency = 0 ∨ s.hostQ = []) → decode s.pend = .error why →
    step s = .next { s with busy := false, done := true, err := true, errCode := 0x6 }

/-- Otherwise the step is the host's next move, and it uses up one move of the engine's latency; a run that has ended rests.
That an idle block with no host move answers itself, and that latency is counted in host moves, are the
model's choices (log entries 8 and 3). -/
def Obligations.StepTakesTheHostsNextMove : Prop :=
  (∀ (s : State) (m : HostMove) (rest : List HostMove), s.hostQ = m :: rest → (s.busy = false ∨ 0 < s.latency) →
    step s = hostMove m { s with hostQ := rest, latency := s.latency - 1 }) ∧
  (∀ s : State, s.runEnded → step s = .next s)

/-- A command's word, numbered as the opcode table numbers it, decodes to the command, and a state in which it has been
issued with latency 0 performs it as its next step. That this is how a command reaches the engine is log entry 13. -/
def Obligations.FetchedWordIsPerformedNext : Prop :=
  ∀ (s : State) (i : Instr), i.wellFormed = true →
    decodeTableWord 32 (encode i).toNat = some i ∧
    s.withFetchWord 32 (encode i).toNat =
      { s with pend := encode i, busy := true, done := false, err := false, errCode := 0, latency := 0 } ∧
    step (s.withFetchWord 32 (encode i).toNat) = exec i (s.withFetchWord 32 (encode i).toNat)

/-! ## The commands -/

/-- NOP writes no state but BUSY and DONE; after an issue, ERR and ERRCODE are clear (40_sequencer.md R106). -/
def Obligations.NopResult : Prop :=
  (∀ s : State, exec .nop s = .next { s with busy := false, done := true }) ∧
  (∀ s : State, exec .nop (s.issueNow (encode .nop)) =
    .next { s with
      pend := 0, busy := false, done := true, err := false, errCode := 0, latency := 0 })

/-- CLEAR zeroes ENT, every derived value and the word read, clears the three valid flags, and keeps all else, LEN, LANG
and OVR among it (40_sequencer.md R107-R109). -/
def Obligations.ClearResult : Prop :=
  ∀ s : State, exec .clear s = .next { s with
    ent := Vector.replicate 8 0, dig := Vector.replicate 8 0, cs := 0, csLen := 0, nWords := 0,
    idx := Vector.replicate 24 0, word := Vector.replicate 8 0, wLen := 0, wIdx := 0,
    csValid := false, idxValid := false, wordValid := false, busy := false, done := true }

/-- CHECKSUM on a valid LEN: DIG is SHA-256 of the first LEN/8 entropy bytes, CS its leading LEN/32 bits, CSLEN is LEN/32,
CS_VALID is set; NWORDS, IDX, the word read and the other flags are unchanged (41_checksum.md R120-R122, R130, R132). -/
def Obligations.ChecksumResult : Prop :=
  ∀ s : State, s.len.toNat % 32 = 0 → 128 ≤ s.len.toNat → s.len.toNat ≤ 256 →
    exec .checksum s = .next { s with
      dig := packBytes (sha256 ((bytesOfArray s.ent).take (s.len.toNat / 8))),
      cs := (sha256 ((bytesOfArray s.ent).take (s.len.toNat / 8))).getD 0 0 >>> (8 - s.len.toNat / 32),
      csLen := BitVec.ofNat 4 (s.len.toNat / 32), csValid := true, busy := false, done := true }

/-- CHECKSUM and ENCODE on an invalid LEN raise InvalidEntropyLength, code 1, and every derived value is cleared; LEN, LANG,
ENT and the word read are kept (41_checksum.md R120, R132, 42_slicer.md R155, 60_exceptions.md R214). -/
def Obligations.InvalidLengthFailsChecksumAndEncode : Prop :=
  ∀ (s : State) (i : Instr), i = .checksum ∨ i = .encode →
    ¬ (s.len.toNat % 32 = 0 ∧ 128 ≤ s.len.toNat ∧ s.len.toNat ≤ 256) →
    exec i s = .next { s with
      dig := Vector.replicate 8 0, cs := 0, csLen := 0, nWords := 0, idx := Vector.replicate 24 0,
      csValid := false, idxValid := false, busy := false, done := true, err := true, errCode := 0x1 }

/-- EXTRACT with CS_VALID = 1 and the checks of 42_slicer.md R151 and R152 passed: with T = LEN + CSLEN, N = T/11 and
X = Eint * 2^CSLEN + CS, IDX k is group k of X for k < N and 0 from N on, NWORDS is N and IDX_VALID is set; all else but
BUSY and DONE is unchanged (R150, R153, R154). It also covers states no run reaches, with CS_VALID = 1 and an invalid LEN; what
the entropy bytes are there, at most the 32 of ENT, is the model's reading (log entry 11). -/
def Obligations.ExtractResult : Prop :=
  ∀ (s : State) (n x : Nat), s.csValid = true → s.csLen.toNat ≤ 8 → s.len.toNat + s.csLen.toNat = 11 * n → n ≤ 24 →
    x = intBE ((bytesOfArray s.ent).take (s.len.toNat / 8)) * 2 ^ s.csLen.toNat + s.cs.toNat →
    exec .extract s = .next { s with
      idx := Vector.ofFn fun k : Fin 24 =>
        if k.val < n then BitVec.ofNat 11 (x / 2 ^ (11 * (n - 1 - k.val)) % 2048) else 0,
      nWords := BitVec.ofNat 5 n, idxValid := true, busy := false, done := true }

/-- EXTRACT with CS_VALID = 0 raises SequenceError, code 7; with CS_VALID = 1 and a failed check it raises
MalformedBitLength, code 3. Either way every derived value is cleared (42_slicer.md R151, R152, R154). -/
def Obligations.ExtractErrors : Prop :=
  ∀ (s : State) (code : BitVec 4),
    (s.csValid = false ∧ code = 0x7) ∨
    (s.csValid = true ∧ code = 0x3 ∧
      ¬ (s.csLen.toNat ≤ 8 ∧ (s.len.toNat + s.csLen.toNat) % 11 = 0 ∧ (s.len.toNat + s.csLen.toNat) / 11 ≤ 24)) →
    exec .extract s = .next { s with
      dig := Vector.replicate 8 0, cs := 0, csLen := 0, nWords := 0, idx := Vector.replicate 24 0,
      csValid := false, idxValid := false, busy := false, done := true, err := true, errCode := code }

/-- ENCODE on a valid LEN: with c = LEN/32, N = (LEN + c)/11 and the digest D of the entropy, it writes DIG, CSUM, NWORDS and
the groups of X = Eint * 2^c + (D[0] >> (8 - c)), and sets CS_VALID and IDX_VALID; all else but BUSY and DONE is unchanged
(42_slicer.md R155). -/
def Obligations.EncodeResult : Prop :=
  ∀ (s : State) (e d : List Byte) (c n x : Nat),
    s.len.toNat % 32 = 0 → 128 ≤ s.len.toNat → s.len.toNat ≤ 256 →
    e = (bytesOfArray s.ent).take (s.len.toNat / 8) → d = sha256 e → c = s.len.toNat / 32 →
    n = (s.len.toNat + c) / 11 → x = intBE e * 2 ^ c + (d.getD 0 0 >>> (8 - c)).toNat →
    exec .encode s = .next { s with
      dig := packBytes d, cs := d.getD 0 0 >>> (8 - c), csLen := BitVec.ofNat 4 c, csValid := true,
      idx := Vector.ofFn fun k : Fin 24 =>
        if k.val < n then BitVec.ofNat 11 (x / 2 ^ (11 * (n - 1 - k.val)) % 2048) else 0,
      nWords := BitVec.ofNat 5 n, idxValid := true, busy := false, done := true }

/-- On an idle block with a valid LEN, ENCODE gives exactly the registers and flags that CHECKSUM and then EXTRACT give, but
for the latched word PEND, which is meaningless while idle (42_slicer.md R155, 10_state.md R35). -/
def Obligations.EncodeEqualsChecksumThenExtract : Prop :=
  ∀ s : State, s.busy = false → s.len.toNat % 32 = 0 → 128 ≤ s.len.toNat → s.len.toNat ≤ 256 →
    ∃ t u v, s.command (encode .encode) = .next t ∧ s.command (encode .checksum) = .next u ∧
      u.command (encode .extract) = .next v ∧ { t.block with pend := v.pend } = v.block

/-- LOOKUP i with IDX_VALID = 1, i < NWORDS and WL_READY = 1 loads the entry of the selected table at IDX i: WORD its bytes
packed big-endian and zero-padded, WLEN its length, WIDX its address, WORD_VALID set; IDX, CS_VALID and IDX_VALID and all
else but BUSY and DONE are unchanged (43_wordlist.md R174, R175). IDX has 24 registers, so i < 24 is part of the range
check (log entry 10); in every reachable state NWORDS is at most 24. On a platform that R171 rules out an entry may be longer
than 32 bytes: that WORD then holds its first 32 and WLEN its length modulo 64 is the model's choice (log entry 18). -/
def Obligations.LookupResult : Prop :=
  ∀ (s : State) (i : Nat) (h : i < 24) (w : List Byte), s.idxValid = true → i < s.nWords.toNat → s.wlReady = true →
    w = s.cfg.romRead s.lang.toNat (s.idx[i]).toNat →
    exec (.lookup i) s = .next { s with
      word := packBytes w, wLen := BitVec.ofNat 6 w.length, wIdx := s.idx[i], wordValid := true,
      busy := false, done := true }

/-- LOOKUP i reports the first of its checks that fails, in the order SequenceError (7), IndexOutOfRange (4, every i ≥ 24
among it), WordlistNotLoaded (5), and clears the word read; CS_VALID and IDX_VALID and all else are unchanged (43_wordlist.md R175,
60_exceptions.md R213, R214). -/
def Obligations.LookupErrors : Prop :=
  ∀ (s : State) (i : Nat) (code : BitVec 4),
    (s.idxValid = false ∧ code = 0x7) ∨ (s.idxValid = true ∧ (s.nWords.toNat ≤ i ∨ 24 ≤ i) ∧ code = 0x4) ∨
    (s.idxValid = true ∧ i < s.nWords.toNat ∧ i < 24 ∧ s.wlReady = false ∧ code = 0x5) →
    exec (.lookup i) s = .next { s with
      word := Vector.replicate 8 0, wLen := 0, wIdx := 0, wordValid := false,
      busy := false, done := true, err := true, errCode := code }

/-- RDROM a with a < 2048 and WL_READY = 1 loads the entry of the selected table at a; it needs no valid index and all else
but BUSY and DONE is unchanged (43_wordlist.md R174, R176). On a platform that R171 rules out an entry may be longer than 32
bytes: that WORD then holds its first 32 and WLEN its length modulo 64 is the model's choice (log entry 18). -/
def Obligations.RdromResult : Prop :=
  ∀ (s : State) (a : Nat) (w : List Byte), a < 2048 → s.wlReady = true → w = s.cfg.romRead s.lang.toNat a →
    exec (.rdrom a) s = .next { s with
      word := packBytes w, wLen := BitVec.ofNat 6 w.length, wIdx := BitVec.ofNat 11 a, wordValid := true,
      busy := false, done := true }

/-- RDROM a reports IndexOutOfRange (4) when a ≥ 2048, else WordlistNotLoaded (5) when WL_READY = 0, and clears the word read
(43_wordlist.md R176, 60_exceptions.md R213, R214). -/
def Obligations.RdromErrors : Prop :=
  ∀ (s : State) (a : Nat) (code : BitVec 4),
    (2048 ≤ a ∧ code = 0x4) ∨ (a < 2048 ∧ s.wlReady = false ∧ code = 0x5) →
    exec (.rdrom a) s = .next { s with
      word := Vector.replicate 8 0, wLen := 0, wIdx := 0, wordValid := false,
      busy := false, done := true, err := true, errCode := code }

/-- A LOOKUP that succeeds reads the same entry as RDROM at the address IDX i: the two next states agree whole (43_wordlist.md
R175, R176). -/
def Obligations.LookupReadsLikeRdromAtTheIndex : Prop :=
  ∀ (s : State) (i : Nat) (h : i < 24), s.idxValid = true → i < s.nWords.toNat → s.wlReady = true →
    ∃ t, t.wordValid = true ∧ t.wIdx = s.idx[i] ∧ exec (.lookup i) s = .next t ∧
      exec (.rdrom (s.idx[i]).toNat) s = .next t

/-- Every command, whatever the state, ends in a next state with BUSY = 0 and DONE = 1: a failed command does not stop the
block (40_sequencer.md R102, 60_exceptions.md R216). -/
def Obligations.EveryCommandCompletes : Prop :=
  ∀ (i : Instr) (s : State), ∃ t, exec i s = .next t ∧ t.busy = false ∧ t.done = true

/-- What no command writes, and what each unit's commands leave alone: LEN, LANG, OVR and PEND always; ENT but for CLEAR; DIG,
CSUM, NWORDS, IDX and their flags by the sequencer's NOP and the WLU commands; WORD, WLEN, WIDX and WORD_VALID by NOP and by
the CSX and SLC commands; the configuration and the model's own fields always (10_state.md R43, 60_exceptions.md R214).
That PEND is kept once the block is idle is the model's choice, since R35 leaves it open (log entry 15). -/
def Obligations.CommandFrames : Prop :=
  ∀ (i : Instr) (s t : State), exec i s = .next t →
    t.len = s.len ∧ t.lang = s.lang ∧ t.ovr = s.ovr ∧ t.pend = s.pend ∧ t.cfg = s.cfg ∧ t.latency = s.latency ∧
    t.draws = s.draws ∧ t.hostQ = s.hostQ ∧ t.replies = s.replies ∧
    (i ≠ .clear → t.ent = s.ent) ∧
    (i = .nop ∨ (∃ k, i = .lookup k) ∨ (∃ a, i = .rdrom a) →
      t.dig = s.dig ∧ t.cs = s.cs ∧ t.csLen = s.csLen ∧ t.nWords = s.nWords ∧ t.idx = s.idx ∧
      t.csValid = s.csValid ∧ t.idxValid = s.idxValid) ∧
    (i = .nop ∨ i = .checksum ∨ i = .extract ∨ i = .encode →
      t.word = s.word ∧ t.wLen = s.wLen ∧ t.wIdx = s.wIdx ∧ t.wordValid = s.wordValid) ∧
    (t.err = false → i = .checksum → t.nWords = s.nWords ∧ t.idx = s.idx ∧ t.idxValid = s.idxValid) ∧
    (t.err = false → i = .extract → t.dig = s.dig ∧ t.cs = s.cs ∧ t.csLen = s.csLen ∧ t.csValid = s.csValid)

/-- The errors each command can report in a state that meets the invariant, MalformedBitLength never among them: the
reachable column of 60_exceptions.md R212. -/
def Obligations.ReachableErrors : Prop :=
  ∀ (i : Instr) (s t : State), Inv s → s.busy = true → exec i s = .next t →
    t.errCode ∈ match i with
      | .nop | .clear => [0x0#4]
      | .checksum | .encode => [0x0#4, 0x1#4]
      | .extract => [0x0#4, 0x7#4]
      | .lookup _ => [0x0#4, 0x7#4, 0x4#4, 0x5#4]
      | .rdrom _ => [0x0#4, 0x4#4, 0x5#4]

/-- A perform step that reports an error has exactly the effect of its `Fail(op)` and of the STATUS fields, whatever point of
the operation the error was found at; NOP and CLEAR never fail (60_exceptions.md R211, R214). -/
def Obligations.FailureLeavesNoPartialResult : Prop :=
  ∀ s t : State, s.err = false → perform s = .next t → t.err = true →
    match decode s.pend with
    | .ok .nop | .ok .clear => False
    | .ok .checksum | .ok .extract | .ok .encode =>
      t = { s with
        dig := Vector.replicate 8 0, cs := 0, csLen := 0, nWords := 0, idx := Vector.replicate 24 0, csValid := false,
        idxValid := false, busy := false, done := true, err := true, errCode := t.errCode }
    | .ok (.lookup _) | .ok (.rdrom _) =>
      t = { s with
        word := Vector.replicate 8 0, wLen := 0, wIdx := 0, wordValid := false,
        busy := false, done := true, err := true, errCode := t.errCode }
    | .error _ => t = { s with busy := false, done := true, err := true, errCode := t.errCode }

/-- The result of a perform step is determined by the state of the block before it and the configuration, nothing else
(40_sequencer.md R104). -/
def Obligations.PerformDependsOnTheBlockAlone : Prop :=
  ∀ s s' t t' : State, s.block = s'.block → perform s = .next t → perform s' = .next t' → t.block = t'.block

/-! ## CSX: SHA-256 and the checksum (41_checksum.md) -/

/-- The block of a message of at most 55 bytes: 64 bytes, the message, 0x80, zeros, and its bit length in the last eight
bytes, big-endian; read as sixteen big-endian words (41_checksum.md R124). -/
def Obligations.PaddingFillsOneBlock : Prop :=
  ∀ bs : List Byte, bs.length ≤ 55 →
    (sha256Pad bs).length = 64 ∧ (sha256Pad bs).take bs.length = bs ∧ (sha256Pad bs)[bs.length]? = some 0x80 ∧
    (∀ j, bs.length < j → j < 56 → (sha256Pad bs)[j]? = some 0) ∧ intBE ((sha256Pad bs).drop 56) = 8 * bs.length ∧
    (sha256Block bs).length = 16 ∧
    ∀ t < 16, ((sha256Block bs).getD t 0).toNat = intBE (((sha256Pad bs).drop (4 * t)).take 4)

/-- The message schedule of a 16-word block obeys its recurrence (41_checksum.md R126). -/
def Obligations.MessageScheduleRecurrence : Prop :=
  ∀ m : List Word, m.length = 16 →
    (messageSchedule m).length = 64 ∧ (∀ t < 16, (messageSchedule m).getD t 0 = m.getD t 0) ∧
    ∀ t, 16 ≤ t → t < 64 →
      (messageSchedule m).getD t 0 =
        smallSigma1 ((messageSchedule m).getD (t - 2) 0) + (messageSchedule m).getD (t - 7) 0 +
          smallSigma0 ((messageSchedule m).getD (t - 15) 0) + (messageSchedule m).getD (t - 16) 0

/-- The digest is the eight hash words, each big-endian, and DIG k, which packs the digest bytes, holds hash word k
unchanged; digest byte 0 is the top byte of hash word 0 (41_checksum.md R129). -/
def Obligations.DigestRegistersHoldTheHashWords : Prop :=
  ∀ bs : List Byte,
    (sha256 bs).length = 32 ∧ sha256 bs = (sha256Words bs).flatMap (fun w => bytesBE w.toNat 4) ∧
    (∀ k : Fin 8, (packBytes (sha256 bs))[k] = (sha256Words bs).getD k.val 0) ∧
    (sha256 bs).getD 0 0 = ((sha256Words bs).getD 0 0).extractLsb' 24 8

/-- The checksum of length c is the c most significant bits of digest byte 0, and below 2^c (41_checksum.md R130). -/
def Obligations.ChecksumIsTheLeadingBits : Prop :=
  ∀ (d : List Byte) (c : Nat), 4 ≤ c → c ≤ 8 →
    (checksumBits d c).toNat = (d.getD 0 0).toNat / 2 ^ (8 - c) ∧ (checksumBits d c).toNat < 2 ^ c ∧
    ∀ j < c, (checksumBits d c).getLsbD j = (d.getD 0 0).getLsbD (8 - c + j)

/-- The entropy-length predicate accepts exactly five values (41_checksum.md R120). -/
def Obligations.ValidLengthsAreFive : Prop :=
  ∀ l : Word,
    (validLen l = true ↔ l.toNat % 32 = 0 ∧ 128 ≤ l.toNat ∧ l.toNat ≤ 256) ∧
    (validLen l = true ↔ l ∈ [128#32, 160#32, 192#32, 224#32, 256#32]) ∧
    validLen 0 = false ∧ validLen 96 = false ∧ validLen 127 = false ∧ validLen 129 = false ∧ validLen 288 = false ∧
    validLen 0x80000080 = false ∧ validLen 0xFFFFFFFF = false

/-- For a valid LEN the entropy is the first LEN/8 bytes of ENT, byte j being bits [31-8(j mod 4) : 24-8(j mod 4)] of ENT
j/4; its integer is below 2^LEN and is the big-endian concatenation of the first LEN/32 registers, so the bytes from LEN/8 on
are ignored (41_checksum.md R121). -/
def Obligations.EntropyIsTheLeadingRegisters : Prop :=
  ∀ s : State, validLen s.len = true →
    s.entBytes.length = s.len.toNat / 8 ∧
    (∀ j (h : j < 32), j < s.len.toNat / 8 → s.entBytes.getD j 0 = (s.ent[j / 4]).extractLsb' (24 - 8 * (j % 4)) 8) ∧
    intBE s.entBytes < 2 ^ s.len.toNat ∧
    intBE s.entBytes = (List.range (s.len.toNat / 32)).foldl (fun v k => v * 2 ^ 32 + (s.ent.toList.getD k 0).toNat) 0

/-! ## SLC: the slicer (42_slicer.md) -/

/-- T is a multiple of 11 and N is at most 24 for every valid LEN with CSLEN = LEN/32: the table of 42_slicer.md R157 for T
and N. -/
def Obligations.GroupCountOfEachLength : Prop :=
  ∀ s : State, validLen s.len = true → s.csLen.toNat = s.len.toNat / 32 →
    s.extendedWidth % 11 = 0 ∧ s.extendedWidth / 11 = (s.len.toNat + s.len.toNat / 32) / 11 ∧
    (s.len.toNat, s.csLen.toNat, s.extendedWidth, s.extendedWidth / 11) ∈
      [(128, 4, 132, 12), (160, 5, 165, 15), (192, 6, 198, 18), (224, 7, 231, 21), (256, 8, 264, 24)]

/-- ENCODE on a valid LEN, and EXTRACT where CS_VALID = 1 and CSUM is of its width, write into IDX k, for every k below NWORDS,
the 11-bit window k of the bit buffer of the entropy and the checksum: the bit-buffer form of the slicer gives what the
arithmetic form gives (42_slicer.md R153, R158). -/
def Obligations.BitBufferEqualsTheGroups : Prop :=
  ∀ (i : Instr) (s : State), validLen s.len = true →
    i = .encode ∨ (i = .extract ∧ s.csValid = true ∧ s.csLen.toNat = s.len.toNat / 32 ∧ s.cs.toNat < 2 ^ s.csLen.toNat) →
    ∃ t, exec i s = .next t ∧ t.nWords.toNat = (s.len.toNat + s.len.toNat / 32) / 11 ∧
      ∀ k : Fin 24, k.val < t.nWords.toNat → t.idx[k].toNat = t.bufferWindow k.val

/-- Only the last group depends on the checksum: the closed forms of 42_slicer.md R156, for ENCODE on a valid LEN and for
EXTRACT where CS_VALID = 1 and CSUM is of its width. -/
def Obligations.OnlyTheLastGroupHoldsChecksum : Prop :=
  ∀ (i : Instr) (s : State) (c n : Nat), validLen s.len = true → c = s.len.toNat / 32 → n = (s.len.toNat + c) / 11 →
    i = .encode ∨ (i = .extract ∧ s.csValid = true ∧ s.csLen.toNat = c ∧ s.cs.toNat < 2 ^ c) →
    ∃ t, exec i s = .next t ∧
      (∀ k : Fin 24, k.val = n - 1 → t.idx[k].toNat = intBE s.entBytes % 2 ^ (11 - c) * 2 ^ c + t.cs.toNat) ∧
      ∀ k : Fin 24, k.val < n - 1 → t.idx[k].toNat = intBE s.entBytes / 2 ^ (11 * (n - 1 - k.val) - c) % 2048

/-! ## WLU: the word list (43_wordlist.md) -/

/-- The word a successful read leaves: the first WLEN bytes of WORD are the entry and the rest are 0x00, for an entry of at
most 32 bytes, packed big-endian (43_wordlist.md R174, 10_state.md R33). -/
def Obligations.LoadedWordIsTheEntry : Prop :=
  ∀ (s : State) (a : BitVec 11) (w : List Byte), w = s.cfg.romRead s.lang.toNat a.toNat → w.length ≤ 32 →
    (s.loadWord a).wLen.toNat = w.length ∧ (bytesOfArray (s.loadWord a).word).take w.length = w ∧
    (∀ j < 32, w.length ≤ j → (bytesOfArray (s.loadWord a).word).getD j 0 = 0) ∧
    (s.loadWord a).wIdx = a ∧ (s.loadWord a).wordValid = true

/-- What WLU reads from a ready table of a well-formed platform is 1 to P_WORD_MAX bytes, P_WORD_MAX at most 32, with no
space, and distinct addresses hold distinct words (43_wordlist.md R171). -/
def Obligations.ReadyTableEntries : Prop :=
  ∀ s : State, s.cfg.ok = true → s.wlReady = true → ∀ a < 2048,
    1 ≤ (s.cfg.romRead s.lang.toNat a).length ∧ (s.cfg.romRead s.lang.toNat a).length ≤ s.cfg.wordMax ∧
    s.cfg.wordMax ≤ 32 ∧ 0x20#8 ∉ s.cfg.romRead s.lang.toNat a ∧
    ∀ b < 2048, a ≠ b → s.cfg.romRead s.lang.toNat a ≠ s.cfg.romRead s.lang.toNat b

/-- The platform's boot check leaves a well-formed platform and changes nothing of one that is well formed: every
configuration the spec allows is one the model can start with (70_reset_and_hazards.md R233; how the model carries it is
log entry 1). -/
def Obligations.BootCheckKeepsEveryWellFormedPlatform : Prop :=
  ∀ p : Platform, p.checked.ok = true ∧ (p.ok = true → p.checked = p)

/-! ## The bus (20_memory.md) -/

/-- The register map of 10_state.md section 2, offset by offset; and the 64 registers and the 64 aligned offsets of the
window correspond one to one, no other offset naming a register (20_memory.md R60, R62). -/
def Obligations.RegistersAndOffsetsCorrespond : Prop :=
  (∀ r : Reg, Reg.ofOffset r.offset = some r ∧ r.offset % 4 = 0 ∧ r.offset < 256) ∧
  (∀ off r, Reg.ofOffset off = some r → r.offset = off) ∧
  (∀ off, off % 4 = 0 → off < 256 → ∃ r, Reg.ofOffset off = some r) ∧
  Reg.offset .cmd = 0x00 ∧ Reg.offset .status = 0x04 ∧ Reg.offset .len = 0x08 ∧ Reg.offset .lang = 0x0C ∧
  (∀ k : Fin 8, Reg.offset (.ent k) = 0x10 + 4 * k.val) ∧ (∀ k : Fin 8, Reg.offset (.dig k) = 0x30 + 4 * k.val) ∧
  Reg.offset .csum = 0x50 ∧ Reg.offset .nWords = 0x54 ∧ Reg.offset .wIdx = 0x58 ∧ Reg.offset .wLen = 0x5C ∧
  (∀ k : Fin 24, Reg.offset (.idx k) = 0x60 + 4 * k.val) ∧ (∀ k : Fin 8, Reg.offset (.word k) = 0xC0 + 4 * k.val) ∧
  ∀ k : Fin 8, Reg.offset (.reserved k) = 0xE0 + 4 * k.val

/-- The values a read returns while the block is idle (20_memory.md R63), with no change of state. -/
def Obligations.RegisterReads : Prop :=
  ∀ s : State, s.busy = false →
    s.busRead .cmd = (0, s) ∧ s.busRead .status = (s.statusWord, s) ∧ s.busRead .len = (s.len, s) ∧
    s.busRead .lang = (s.lang.setWidth 32, s) ∧ (∀ k : Fin 8, s.busRead (.ent k) = (s.ent[k], s)) ∧
    (∀ k : Fin 8, s.busRead (.dig k) = (s.dig[k], s)) ∧
    s.busRead .csum = (BitVec.ofNat 32 (s.csLen.toNat * 2 ^ 8 + s.cs.toNat), s) ∧
    s.busRead .nWords = (s.nWords.setWidth 32, s) ∧ s.busRead .wIdx = (s.wIdx.setWidth 32, s) ∧
    s.busRead .wLen = (s.wLen.setWidth 32, s) ∧ (∀ k : Fin 24, s.busRead (.idx k) = (s.idx[k].setWidth 32, s)) ∧
    (∀ k : Fin 8, s.busRead (.word k) = (s.word[k], s)) ∧ ∀ k : Fin 8, s.busRead (.reserved k) = (0, s)

/-- Reads while BUSY: a register of the in-flight command's write set gives a fresh unspecified value, every other register
its exact value (70_reset_and_hazards.md R235). The statement holds for every value of the free constant
`Config.busyRead` and of the counter `draws` (log entry 4). -/
def Obligations.BusyReads : Prop :=
  ∀ (s : State) (r : Reg), s.busy = true →
    let derived := (∃ k, r = .dig k) ∨ r = .csum ∨ r = .nWords ∨ ∃ k, r = .idx k
    let wordRead := r = .wIdx ∨ r = .wLen ∨ ∃ k, r = .word k
    let inSet := match decode s.pend with
      | .ok .nop | .error _ => False
      | .ok .clear => (∃ k, r = .ent k) ∨ derived ∨ wordRead
      | .ok .checksum | .ok .extract | .ok .encode => derived
      | .ok (.lookup _) | .ok (.rdrom _) => wordRead
    (inSet → s.busRead r = (Config.busyRead s.draws, { s with draws := s.draws + 1 })) ∧
    (¬ inSet → s.busRead r = (s.regValue r, s))

/-- The effects of a write of each register (20_memory.md R64): issue, input writes with their invalidation, the dropped
writes while BUSY, the write-1-to-clear of OVR, and no effect elsewhere. The issue is stated of the block, the state without
the model's own fields: it also draws the model's latency (log entry 3). -/
def Obligations.RegisterWrites : Prop :=
  ∀ (s : State) (v : Word),
    (s.busy = false →
      (s.busWrite .cmd v).block = { s.block with
        pend := v, busy := true, done := false, err := false, errCode := 0 } ∧
      s.busWrite .len v = { s with len := v, csValid := false, idxValid := false } ∧
      s.busWrite .lang v = { s with lang := v.extractLsb' 0 8, wordValid := false } ∧
      ∀ k : Fin 8, s.busWrite (.ent k) v = { s with ent := s.ent.set k v, csValid := false, idxValid := false }) ∧
    (s.busy = true → ∀ r, r = .cmd ∨ r = .len ∨ r = .lang ∨ (∃ k, r = .ent k) →
      s.busWrite r v = { s with ovr := true }) ∧
    s.busWrite .status v = (if v.getLsbD 3 = true then { s with ovr := false } else s) ∧
    ∀ r, r ≠ .cmd → r ≠ .status → r ≠ .len → r ≠ .lang → (∀ k, r ≠ .ent k) → s.busWrite r v = s

/-- A 32-bit host access at the address of a register of the window reads or writes that register, and the bus answers
(20_memory.md R60, R63, R64). That the answers are kept in a list is log entry 6. -/
def Obligations.AlignedAccessReachesItsRegister : Prop :=
  ∀ (s : State) (r : Reg) (v : Word),
    hostMove (.read .word (s.cfg.regBase + r.offset)) s =
      .next { (s.busRead r).2 with replies := .data (s.busRead r).1 :: s.replies } ∧
    hostMove (.write .word (s.cfg.regBase + r.offset) v) s =
      .next { s.busWrite r v with replies := .ack :: s.replies }

/-- An access inside the window that is 8 or 16 bits wide or misaligned gets a bus error and has no effect on the block, not
even on OVR (20_memory.md R62, 60_exceptions.md R217). That the answers are kept in a list is log entry 6, and that an access is
judged by its first byte alone, also where its last bytes lie past the window, is log entry 21. -/
def Obligations.WrongAccessGetsABusError : Prop :=
  ∀ (s : State) (w : Width) (addr : Nat) (v : Word),
    s.cfg.regBase ≤ addr → addr < s.cfg.regBase + 256 → (w ≠ .word ∨ (addr - s.cfg.regBase) % 4 ≠ 0) →
    hostMove (.read w addr) s = .next { s with replies := .busError :: s.replies } ∧
    hostMove (.write w addr v) s = .next { s with replies := .busError :: s.replies }

/-- STATUS bit by bit, WL_READY computed from LANG and the configuration, the bits above 11 reading 0 (10_state.md R23,
R39). -/
def Obligations.StatusFields : Prop :=
  ∀ s : State,
    s.statusWord.getLsbD 0 = s.busy ∧ s.statusWord.getLsbD 1 = s.done ∧ s.statusWord.getLsbD 2 = s.err ∧
    s.statusWord.getLsbD 3 = s.ovr ∧ s.statusWord.extractLsb' 4 4 = s.errCode ∧
    s.statusWord.getLsbD 8 = s.csValid ∧ s.statusWord.getLsbD 9 = s.idxValid ∧
    s.statusWord.getLsbD 10 = s.wordValid ∧
    (s.statusWord.getLsbD 11 = true ↔ s.lang.toNat < s.cfg.nLang ∧ s.cfg.wlLoaded s.lang.toNat = true) ∧
    s.statusWord.extractLsb' 12 20 = 0

/-- No read has a side effect on the block, and a read of any register, but for one in the write set of a command in flight,
changes nothing and gives the same value when it is made again, idle or BUSY (20_memory.md R66). The write sets
`inWriteSet` are spelled out in BusyReads. -/
def Obligations.ReadsHaveNoSideEffect : Prop :=
  (∀ (s t : State) (w : Width) (addr : Nat), hostMove (.read w addr) s = .next t → t.block = s.block) ∧
  (∀ s t : State, hostMove .wait s = .next t → t.block = s.block) ∧
  ∀ (s : State) (r : Reg), s.busy = false ∨ inWriteSet (decode s.pend) r = false →
    (s.busRead r).2 = s ∧ ((s.busRead r).2.busRead r).1 = (s.busRead r).1

/-- Any accepted write to LEN or to an ENTk clears CS_VALID, and an EXTRACT after it fails with SequenceError and slices
nothing (70_reset_and_hazards.md R238, 10_state.md R40). -/
def Obligations.ExtractAfterAnInputWriteFails : Prop :=
  ∀ (s : State) (r : Reg) (v : Word), s.busy = false → r = .len ∨ (∃ k, r = .ent k) →
    (s.busWrite r v).csValid = false ∧
    ∃ t, (s.busWrite r v).command (encode .extract) = .next t ∧ t.err = true ∧ t.errCode = 0x7 ∧
      t.nWords = 0 ∧ t.idx = Vector.replicate 24 0 ∧ t.csValid = false ∧ t.idxValid = false

/-! ## Reset (70_reset_and_hazards.md) -/

/-- Reset, asserted in any state, loads 0 into every register and flag and abandons the command in flight; the same values
stand in the state a run starts from (70_reset_and_hazards.md R230). What reset leaves of the model's own fields is log
entry 16. -/
def Obligations.ResetLoadsZeroEverywhere : Prop :=
  ∀ (s t : State), hostMove .reset s = .next t ∨ t = State.reset →
    t.len = 0 ∧ t.lang = 0 ∧ t.ent = Vector.replicate 8 0 ∧ t.dig = Vector.replicate 8 0 ∧
    t.word = Vector.replicate 8 0 ∧ t.cs = 0 ∧ t.csLen = 0 ∧ t.nWords = 0 ∧ t.wIdx = 0 ∧ t.wLen = 0 ∧
    t.idx = Vector.replicate 24 0 ∧ t.busy = false ∧ t.done = false ∧ t.err = false ∧ t.ovr = false ∧
    t.errCode = 0 ∧ t.csValid = false ∧ t.idxValid = false ∧ t.wordValid = false ∧ t.pend = 0

/-- After reset STATUS reads 0x00000800 when the default table is loaded and 0x00000000 when it is not, on every well-formed
platform (70_reset_and_hazards.md R231). -/
def Obligations.StatusAfterReset : Prop :=
  ∀ p : Platform, p.ok = true →
    (State.afterReset p).statusWord = if p.wlLoaded 0 = true then 0x00000800 else 0x00000000

/-- The state a run starts from meets the invariant. -/
def Obligations.ResetMeetsTheInvariant : Prop := Inv State.reset

/-! ## The whole machine -/

/-- Every step keeps the invariant: whenever CS_VALID, IDX_VALID or WORD_VALID is 1 they certify the current inputs
(10_state.md R36-R38), CS stays below 2^CSLEN (R28), NWORDS, IDX and WORD keep their forms (R29, R31-R33), and only the
reachable error codes occur (60_exceptions.md R210, R212). -/
def Obligations.EveryStepKeepsTheInvariant : Prop :=
  ∀ s t : State, Inv s → step s = .next t → Inv t

/-- No step changes the configuration, the word ROM in it (43_wordlist.md R170, 44_host_encoder.md R198). -/
def Obligations.ConfigurationNeverChanges : Prop :=
  ∀ s t : State, step s = .next t → t.cfg = s.cfg

/-- A step never refuses, and it faults exactly when it is the host's turn and its next move is an access outside the
register window. That such an access stops the model is its own choice (log entry 9). -/
def Obligations.StepStopsOnlyOutsideTheWindow : Prop :=
  ∀ s : State, (∀ r, step s ≠ .refused r) ∧
    ∀ f, step s = .fault f ↔
      f = .outsideWindow ∧ (s.busy = false ∨ 0 < s.latency) ∧
      ∃ addr w v rest, (s.hostQ = .read w addr :: rest ∨ s.hostQ = .write w addr v :: rest) ∧
        ¬ (s.cfg.regBase ≤ addr ∧ addr < s.cfg.regBase + 256)

/-- OVR is set only by a dropped write, one to CMD, LEN, LANG or an ENTk while BUSY = 1, and cleared only by a write of
STATUS with bit 3 set or by reset (10_state.md R23, R43, 40_sequencer.md R101). -/
def Obligations.OverrunFlagSources : Prop :=
  ∀ s t : State, step s = .next t →
    (s.ovr = false → t.ovr = true → s.busy = true ∧ ∃ r v rest,
      s.hostQ = .write .word (s.cfg.regBase + Reg.offset r) v :: rest ∧
      (r = .cmd ∨ r = .len ∨ r = .lang ∨ ∃ k, r = .ent k)) ∧
    (s.ovr = true → t.ovr = false → ∃ rest,
      s.hostQ = .reset :: rest ∨
      ∃ v, v.getLsbD 3 = true ∧ s.hostQ = .write .word (s.cfg.regBase + Reg.offset .status) v :: rest)

/-- While a command is in flight, no step but its perform step or a reset changes PEND or an input of the command, or a
result register: the command in flight is undisturbed, and only OVR can change (40_sequencer.md R101, 43_wordlist.md
R173). -/
def Obligations.CommandInFlightIsUndisturbed : Prop :=
  ∀ s t : State, step s = .next t → s.busy = true → t.busy = true → { t.block with ovr := s.ovr } = s.block

/-! ## The host (44_host_encoder.md, 30_encoding.md R86-R88) -/

/-- The assembler's expansions (30_encoding.md R86, R87): each command mnemonic is one 32-bit write of its word to CMD, `wr`
and `rd` are one access at the register's offset, an argument of 65536 or more is rejected. Which registers `wr` and `rd` may
name, the reserved ones among them for `rd`, is log entry 22. -/
def Obligations.AssemblerExpansions : Prop :=
  ∀ p : Platform,
    assemble p (.command .nop) = some (.write .word (p.regBase + 0x00) 0x00000000) ∧
    assemble p (.command .clear) = some (.write .word (p.regBase + 0x00) 0x00000001) ∧
    assemble p (.command .checksum) = some (.write .word (p.regBase + 0x00) 0x00000002) ∧
    assemble p (.command .extract) = some (.write .word (p.regBase + 0x00) 0x00000003) ∧
    assemble p (.command .encode) = some (.write .word (p.regBase + 0x00) 0x00000004) ∧
    (∀ i < 65536, assemble p (.command (.lookup i)) =
      some (.write .word (p.regBase + 0x00) ((BitVec.ofNat 32 i <<< 16) ||| 0x5))) ∧
    (∀ a < 65536, assemble p (.command (.rdrom a)) =
      some (.write .word (p.regBase + 0x00) ((BitVec.ofNat 32 a <<< 16) ||| 0x6))) ∧
    (∀ i, 65536 ≤ i → assemble p (.command (.lookup i)) = none ∧ assemble p (.command (.rdrom i)) = none) ∧
    (∀ v, assemble p (.cmd v) = some (.write .word (p.regBase + 0x00) v)) ∧
    (∀ r, assemble p (.rd r) = some (.read .word (p.regBase + r.offset))) ∧
    ∀ r v, (r = .cmd ∨ r = .status ∨ r = .len ∨ r = .lang ∨ ∃ k, r = .ent k) →
      assemble p (.wr r v) = some (.write .word (p.regBase + r.offset) v)

/-- A command and its `wait`, from any idle state and whatever latency the engine takes: the host's loop ends after
`latency + 3` steps, with BUSY = 0, with the registers and flags of the command's synchronous form, and with STATUS as the
last value read (30_encoding.md R88, 40_sequencer.md R105). Latency as a number of host moves is log entry 3; the
statement holds for every value of the free constant `Config.latency`. -/
def Obligations.CommandCompletesAndWaitReturns : Prop :=
  ∀ (s : State) (v : Word) (rest : List HostMove), s.busy = false →
    s.hostQ = .write .word (s.cfg.regBase + 0x00) v :: .wait :: rest →
    ∃ t u rs, s.command v = .next u ∧ RunsTo (Config.latency s.draws + 3) s t ∧ t.hostQ = rest ∧ t.busy = false ∧
      t.block = u.block ∧ t.replies = .data u.statusWord :: rs

/-- generateMnemonic, whether or not the host checks the strength first, on an idle block with a valid strength, a ready table and a random source that delivers: with c = b/32,
N = (b + c)/11 and X = Eint * 2^c + (SHA-256(entropy)[0] >> (8 - c)), it returns the phrase of exactly N words, word k
being the entry of the selected table at group k of X, and it leaves the block zeroised (44_host_encoder.md R191, R192,
R195, R197). That the sequence is run as one composition of commands in their synchronous form is log entry 19. -/
def Obligations.GenerateMnemonicIsCorrect : Prop :=
  ∀ (check : Bool) (s : State) (b : Word) (source : Nat → Option (List Byte)) (e : List Byte) (c n x : Nat)
      (ws : List (List Byte)),
    s.busy = false → s.cfg.ok = true → s.wlReady = true → validLen b = true →
    source (b.toNat / 8) = some e → e.length = b.toNat / 8 → c = b.toNat / 32 → n = (b.toNat + c) / 11 →
    x = intBE e * 2 ^ c + ((sha256 e).getD 0 0 >>> (8 - c)).toNat →
    ws = (List.range n).map (fun k => s.cfg.romRead s.lang.toNat (x / 2 ^ (11 * (n - 1 - k)) % 2048)) →
    ws.length = n ∧ n ∈ [12, 15, 18, 21, 24] ∧
    ∃ t, generateMnemonic check b source s = .next (t, .ok (phrase ws)) ∧
      t.ent = Vector.replicate 8 0 ∧ t.dig = Vector.replicate 8 0 ∧ t.cs = 0 ∧ t.csLen = 0 ∧ t.nWords = 0 ∧
      t.idx = Vector.replicate 24 0 ∧ t.word = Vector.replicate 8 0 ∧ t.wLen = 0 ∧ t.wIdx = 0 ∧
      t.csValid = false ∧ t.idxValid = false ∧ t.wordValid = false ∧
      t.err = false ∧ t.busy = false ∧ t.len = b ∧ t.lang = s.lang

/-- The errors of generateMnemonic, none of them with a mnemonic (44_host_encoder.md R190, R191, R193, R195). A host that
checks the strength first returns InvalidEntropyLength for every invalid strength, whatever its source does, and ENT is
untouched. A host that does not returns it for an invalid strength whose entropy the source delivers, every derived value
of R108 then 0 and CS_VALID and IDX_VALID clear. For a valid strength whose entropy the source delivers, while the selected
table is not ready, WordlistNotLoaded is returned, the word read then 0 and WORD_VALID clear. Where the source delivers nothing, or a wrong number of bytes, and no check comes first or the strength is valid,
RandomSourceFailure is returned and ENT is untouched. The model's choices: the sequence as one composition, and a wrong number
of bytes as a failure of the source (log entry 19); for a host that does not check first, RandomSourceFailure before
InvalidEntropyLength when both apply (log entry 23); what is written of more than 32 bytes (log entry 24). -/
def Obligations.GenerateMnemonicReportsErrors : Prop :=
  ∀ (check : Bool) (s : State) (b : Word) (source : Nat → Option (List Byte)), s.busy = false →
    (check = true → validLen b = false →
      ∃ t, generateMnemonic check b source s = .next (t, .error (.block 0x1)) ∧ t.ent = s.ent) ∧
    (∀ e, check = false → validLen b = false → source (b.toNat / 8) = some e → e.length = b.toNat / 8 →
      ∃ t, generateMnemonic check b source s = .next (t, .error (.block 0x1)) ∧ t.dig = Vector.replicate 8 0 ∧
        t.cs = 0 ∧ t.csLen = 0 ∧ t.nWords = 0 ∧ t.idx = Vector.replicate 24 0 ∧ t.csValid = false ∧
        t.idxValid = false) ∧
    (∀ e, validLen b = true → s.wlReady = false → source (b.toNat / 8) = some e → e.length = b.toNat / 8 →
      ∃ t, generateMnemonic check b source s = .next (t, .error (.block 0x5)) ∧ t.word = Vector.replicate 8 0 ∧
        t.wLen = 0 ∧ t.wIdx = 0 ∧ t.wordValid = false) ∧
    (check = false ∨ validLen b = true →
      source (b.toNat / 8) = none ∨ (∃ e, source (b.toNat / 8) = some e ∧ e.length ≠ b.toNat / 8) →
      ∃ t, generateMnemonic check b source s = .next (t, .error .randomSourceFailure) ∧ t.ent = s.ent)

/-! ## The launch (43_wordlist.md R171, 70_reset_and_hazards.md R231, R233) -/

/-- A configuration is well formed when its parameters are in the ranges of 00_scope.md R6 and every loaded table has 2048
pairwise distinct entries of 1 to P_WORD_MAX bytes, without a space, in UTF-8 (43_wordlist.md R171). The launch of any other is
refused; a launch of a well-formed one starts in the state after reset; and every run from a launch, whatever the host does,
meets the invariant, so that no ill-formed configuration is ever run on. `State.reset` is the launch of the open platform after
its boot check (log entry 1); the form of UTF-8 is log entry 7. -/
def Obligations.LaunchRefusesIllFormedPlatforms : Prop :=
  (∀ p : Platform, p.ok = true ↔ 1 ≤ p.nLang ∧ p.nLang ≤ 256 ∧ 1 ≤ p.wordMax ∧ p.wordMax ≤ 32 ∧
    ∀ t ∈ p.tables, t.loaded = true → t.words.length = 2048 ∧ t.words.Nodup ∧
      ∀ w ∈ t.words, 1 ≤ w.length ∧ w.length ≤ p.wordMax ∧ 0x20#8 ∉ w ∧ isUtf8 w = true) ∧
  (∀ p : Platform, p.ok = false → launch p = .refused .illFormedPlatform) ∧
  (∀ p : Platform, p.ok = true → launch p = .next (State.afterReset p)) ∧
  launch Config.platform.checked = .next State.reset ∧
  ∀ (p : Platform) (s t : State) (q : List HostMove) (n : Nat), launch p = .next s → RunsTo n { s with hostQ := q } t →
    Inv t
end

