-- ==== Sys2Proof/Laws/Bytes.lean ====
section
/-! SUPPORT. Byte strings and their packing into registers (00_scope.md R8, 20_memory.md R68): what packing and
unpacking do to each byte, and that each undoes the other. -/

namespace Sys2Proof.Machine

theorem byteOfWord_wordOfBytes (b0 b1 b2 b3 : Byte) :
    byteOfWord (wordOfBytes b0 b1 b2 b3) 0 = b0 ∧ byteOfWord (wordOfBytes b0 b1 b2 b3) 1 = b1 ∧
    byteOfWord (wordOfBytes b0 b1 b2 b3) 2 = b2 ∧ byteOfWord (wordOfBytes b0 b1 b2 b3) 3 = b3 := by
  refine ⟨?_, ?_, ?_, ?_⟩ <;> ext i hi <;>
    simp [byteOfWord, wordOfBytes, hi] <;>
    interval_cases i <;> simp [BitVec.getLsbD_eq_getElem]

theorem wordOfBytes_byteOfWord (w : Word) :
    wordOfBytes (byteOfWord w 0) (byteOfWord w 1) (byteOfWord w 2) (byteOfWord w 3) = w := by
  ext i hi
  simp only [byteOfWord, wordOfBytes]
  interval_cases i <;> simp

theorem vector8_toList (v : Vector Word 8) : v.toList = [v[0], v[1], v[2], v[3], v[4], v[5], v[6], v[7]] := by
  apply List.ext_getElem <;> simp
  intro i hi
  interval_cases i <;> rfl

@[simp] theorem bytesOfArray_length (v : Vector Word 8) : (bytesOfArray v).length = 32 := by
  simp [bytesOfArray, vector8_toList, bytesOfWord]

/-- Byte `j` of a packed array is byte `j mod 4` of its register `j / 4` (20_memory.md R68). -/
theorem bytesOfArray_getD (v : Vector Word 8) (j : Nat) (hj : j < 32) :
    (bytesOfArray v).getD j 0 = byteOfWord (v[j / 4]'(by omega)) (j % 4) := by
  simp only [bytesOfArray, vector8_toList]
  interval_cases j <;> rfl

theorem wordAt_bytesOfArray (v : Vector Word 8) (k : Nat) (hk : k < 8) : wordAt (bytesOfArray v) k = v[k] := by
  rw [wordAt, bytesOfArray_getD _ _ (by omega), bytesOfArray_getD _ _ (by omega), bytesOfArray_getD _ _ (by omega),
    bytesOfArray_getD _ _ (by omega)]
  interval_cases k <;> exact wordOfBytes_byteOfWord _

/-- Packing undoes unpacking. -/
@[simp] theorem packBytes_bytesOfArray (v : Vector Word 8) : packBytes (bytesOfArray v) = v := by
  ext k hk
  simp [packBytes, wordAt_bytesOfArray _ _ hk]

/-- Byte `j` of a packed byte string is its byte `j`, 0x00 past its end (43_wordlist.md R174). -/
theorem bytesOfArray_packBytes_getD (bs : List Byte) (j : Nat) (hj : j < 32) :
    (bytesOfArray (packBytes bs)).getD j 0 = bs.getD j 0 := by
  rw [bytesOfArray_getD _ _ hj]
  simp only [packBytes, Vector.getElem_ofFn, wordAt]
  have h := byteOfWord_wordOfBytes (bs.getD (4 * (j / 4)) 0) (bs.getD (4 * (j / 4) + 1) 0)
    (bs.getD (4 * (j / 4) + 2) 0) (bs.getD (4 * (j / 4) + 3) 0)
  have hc : j % 4 = 0 ∨ j % 4 = 1 ∨ j % 4 = 2 ∨ j % 4 = 3 := by omega
  rcases hc with hc | hc | hc | hc <;> rw [hc]
  · rw [h.1]; congr 1; omega
  · rw [h.2.1]; congr 1; omega
  · rw [h.2.2.1]; congr 1; omega
  · rw [h.2.2.2]; congr 1; omega

/-- The first bytes of a packed byte string of at most 32 bytes are that byte string. -/
theorem take_bytesOfArray_packBytes (bs : List Byte) (h : bs.length ≤ 32) :
    (bytesOfArray (packBytes bs)).take bs.length = bs := by
  apply List.ext_getElem
  · simp [h]
  · intro j h1 h2
    have hj : j < 32 := by omega
    have := bytesOfArray_packBytes_getD bs j hj
    rw [List.getD_eq_getElem _ _ (by simpa using hj), List.getD_eq_getElem _ _ h2] at this
    simpa using this

@[simp] theorem bytesOfWord_length (w : Word) : (bytesOfWord w).length = 4 := rfl

@[simp] theorem sha256Words_length (bs : List Byte) : (sha256Words bs).length = 8 := rfl

@[simp] theorem sha256_length (bs : List Byte) : (sha256 bs).length = 32 := rfl

/-- The digest bytes of register `k` are word `k` of the hash (41_checksum.md R129). -/
theorem wordAt_sha256 (bs : List Byte) (k : Nat) (hk : k < 8) :
    wordAt (sha256 bs) k = (sha256Words bs).getD k 0 := by
  unfold sha256 sha256Words WorkVars.toList
  generalize sha256Compress sha256H0 (sha256Block bs) = v
  interval_cases k <;> exact wordOfBytes_byteOfWord _

/-- A register is the big-endian integer of its four bytes (20_memory.md R68). -/
theorem wordOfBytes_toNat (a b c d : Byte) : (wordOfBytes a b c d).toNat = intBE [a, b, c, d] := by
  have ha := a.isLt
  have hb := b.isLt
  have hc := c.isLt
  have hd := d.isLt
  have e3 : (c.toNat <<< 8 ||| d.toNat) = c.toNat * 2 ^ 8 + d.toNat := by
    rw [← Nat.shiftLeft_add_eq_or_of_lt hd, Nat.shiftLeft_eq]
  have e2 : (b.toNat <<< 16 ||| (c.toNat * 2 ^ 8 + d.toNat)) = b.toNat * 2 ^ 16 + (c.toNat * 2 ^ 8 + d.toNat) := by
    rw [← Nat.shiftLeft_add_eq_or_of_lt (by omega), Nat.shiftLeft_eq]
  have e1 : (a.toNat <<< 24 ||| (b.toNat * 2 ^ 16 + (c.toNat * 2 ^ 8 + d.toNat))) =
      a.toNat * 2 ^ 24 + (b.toNat * 2 ^ 16 + (c.toNat * 2 ^ 8 + d.toNat)) := by
    rw [← Nat.shiftLeft_add_eq_or_of_lt (by omega), Nat.shiftLeft_eq]
  have hm : ∀ x n : Nat, x < 256 → n ≤ 24 → x <<< n % 2 ^ 32 = x <<< n := by
    intro x n hx hn
    apply Nat.mod_eq_of_lt
    rw [Nat.shiftLeft_eq]
    calc x * 2 ^ n < 256 * 2 ^ n := by apply Nat.mul_lt_mul_of_pos_right hx (Nat.two_pow_pos n)
      _ ≤ 256 * 2 ^ 24 := Nat.mul_le_mul_left _ (Nat.pow_le_pow_right (by norm_num) hn)
      _ = 2 ^ 32 := by norm_num
  simp only [wordOfBytes, BitVec.toNat_or, BitVec.toNat_shiftLeft, BitVec.toNat_setWidth, intBE, List.length_cons,
    List.length_nil]
  rw [Nat.mod_eq_of_lt (a := a.toNat) (by omega), Nat.mod_eq_of_lt (a := b.toNat) (by omega),
    Nat.mod_eq_of_lt (a := c.toNat) (by omega), Nat.mod_eq_of_lt (a := d.toNat) (by omega),
    hm _ 24 ha (by omega), hm _ 16 hb (by omega), hm _ 8 hc (by omega), Nat.or_assoc, Nat.or_assoc, e3, e2, e1]
  omega

theorem intBE_lt (bs : List Byte) : intBE bs < 2 ^ (8 * bs.length) := by
  induction bs with
  | nil => simp [intBE]
  | cons b bs ih =>
    have hb := b.isLt
    simp only [intBE, List.length_cons]
    rw [show 8 * (bs.length + 1) = 8 + 8 * bs.length by ring, pow_add]
    nlinarith [Nat.two_pow_pos (8 * bs.length)]

theorem intBE_append (as bs : List Byte) : intBE (as ++ bs) = intBE as * 2 ^ (8 * bs.length) + intBE bs := by
  induction as with
  | nil => simp [intBE]
  | cons a as ih =>
    simp only [intBE, List.cons_append, ih, List.length_append]
    rw [mul_add, pow_add]
    ring

@[simp] theorem bytesBE_length (v n : Nat) : (bytesBE v n).length = n := by
  induction n with
  | zero => rfl
  | succ n ih => simp [bytesBE, ih]

/-- `bytes_be` is the inverse of `int_be` (00_scope.md R8), here modulo the width. -/
theorem intBE_bytesBE (v n : Nat) : intBE (bytesBE v n) = v % 2 ^ (8 * n) := by
  induction n with
  | zero => simp [bytesBE, intBE, Nat.mod_one]
  | succ n ih =>
    simp only [bytesBE, intBE, bytesBE_length, ih, BitVec.toNat_ofNat]
    rw [show 8 * (n + 1) = 8 * n + 8 by ring, pow_add, Nat.mod_mul]
    ring

end Sys2Proof.Machine
end

