-- ==== Sys2Proof/Laws/PerInstr.lean ====
section
/-! SUPPORT. The family of statements made per command: `Encoding`, the three fields of the encoded word of each command
(30_encoding.md R80, R81). -/

namespace Sys2Proof.Laws.Encoding

/-- The word of a command has RSV = 0, its operation code in OP, and, where the argument has an encoding, the argument
in ARG (30_encoding.md R80, R82, R87). -/
def Statement (i : Instr) : Prop :=
  rsvField (encode i) = 0 ∧ opField (encode i) = opcode i ∧
    (i.wellFormed = true → (argField (encode i)).toNat = argument i)

theorem nop : Statement .nop := by unfold Statement; decide
theorem clear : Statement .clear := by unfold Statement; decide
theorem checksum : Statement .checksum := by unfold Statement; decide
theorem extract : Statement .extract := by unfold Statement; decide
theorem encode : Statement .encode := by unfold Statement; decide

/-- The fields of `(a << 16) | op`. -/
theorem fields (a : Nat) (op : BitVec 4) :
    rsvField ((BitVec.ofNat 32 a <<< 16) ||| op.setWidth 32) = 0 ∧
    opField ((BitVec.ofNat 32 a <<< 16) ||| op.setWidth 32) = op ∧
    (a < 65536 → (argField ((BitVec.ofNat 32 a <<< 16) ||| op.setWidth 32)).toNat = a) := by
  refine ⟨?_, ?_, fun ha => ?_⟩
  · ext k hk
    have h1 : 4 + k < 16 := by omega
    simp [rsvField, h1]
  · ext k hk
    have h1 : k < 16 := by omega
    simp [opField, h1, BitVec.getLsbD_eq_getElem hk]
    omega
  · have : argField ((BitVec.ofNat 32 a <<< 16) ||| op.setWidth 32) = BitVec.ofNat 16 a := by
      ext k hk
      have h1 : 16 + k < 32 := by omega
      have h2 : op.getLsbD (16 + k) = false := BitVec.getLsbD_of_ge _ _ (by omega)
      simp [argField, h1, h2, ← BitVec.getLsbD_eq_getElem, BitVec.getLsbD_ofNat, hk, show k < 32 by omega]
    rw [this, BitVec.toNat_ofNat]
    omega

theorem lookup (i : Nat) : Statement (.lookup i) := by
  have h := fields i 5
  exact ⟨h.1, h.2.1, fun hw => h.2.2 (by simpa [Instr.wellFormed] using hw)⟩

theorem rdrom (a : Nat) : Statement (.rdrom a) := by
  have h := fields a 6
  exact ⟨h.1, h.2.1, fun hw => h.2.2 (by simpa [Instr.wellFormed] using hw)⟩

end Sys2Proof.Laws.Encoding
end

