-- ==== Sys2Proof/Laws/Decode.lean ====
section
/-! SUPPORT. The decoder as its case analysis, and a command word as its three fields (30_encoding.md R80, R85). -/

namespace Sys2Proof

/-- Two command words with the same ARG, RSV and OP are the same word (30_encoding.md R80). -/
theorem word_eq_of_fields {c d : Word} (ha : argField c = argField d) (hr : rsvField c = rsvField d)
    (ho : opField c = opField d) : c = d := by
  ext k hk
  have e : ∀ (s l j : Nat), c.extractLsb' s l = d.extractLsb' s l → j < l → c.getLsbD (s + j) = d.getLsbD (s + j) := by
    intro s l j h hj
    have := congrArg (fun x => x.getLsbD j) h
    simpa [BitVec.getLsbD_extractLsb', hj] using this
  rw [← BitVec.getLsbD_eq_getElem, ← BitVec.getLsbD_eq_getElem]
  by_cases h1 : k < 4
  · have := e 0 4 k ho h1
    simpa using this
  · by_cases h2 : k < 16
    · have := e 4 12 (k - 4) hr (by omega)
      rwa [show 4 + (k - 4) = k by omega] at this
    · have := e 16 16 (k - 16) ha (by omega)
      rwa [show 16 + (k - 16) = k by omega] at this

/-- The four bits of OP, one by one. -/
theorem opField_cases (o : BitVec 4) :
    o = 0x0 ∨ o = 0x1 ∨ o = 0x2 ∨ o = 0x3 ∨ o = 0x4 ∨ o = 0x5 ∨ o = 0x6 ∨ 7 ≤ o.toNat := by
  have := o.isLt
  simp only [← BitVec.toNat_inj]
  simp
  omega

/-- The results of the decoder by the fields of the word (30_encoding.md R85). -/
theorem decode_ok_iff (c : Word) (i : Instr) :
    decode c = .ok i ↔ rsvField c = 0 ∧ opField c = opcode i ∧ (argField c).toNat = argument i := by
  have hz : (argField c).toNat = 0 ↔ argField c = 0 := by
    rw [← BitVec.toNat_inj]
    simp
  by_cases hr : rsvField c = 0
  · rcases opField_cases (opField c) with h | h | h | h | h | h | h | h
    case inr.inr.inr.inr.inr.inr.inr =>
      have hne : ∀ n : Nat, n < 7 → opField c ≠ BitVec.ofNat 4 n := by
        intro n hn he
        rw [he, BitVec.toNat_ofNat] at h
        omega
      have h0 := hne 0; have h1 := hne 1; have h2 := hne 2; have h3 := hne 3
      have h4 := hne 4; have h5 := hne 5; have h6 := hne 6
      simp at h0 h1 h2 h3 h4 h5 h6
      cases i <;> simp [decode, hr, h0, h1, h2, h3, h4, h5, h6, opcode]
    all_goals
      cases i <;> simp [decode, hr, h, opcode, argument, withoutArgument, hz]
    all_goals split_ifs <;> simp_all
  · have hr' : rsvField c ≠ 0#12 := hr
    simp [decode, hr']

end Sys2Proof
end

