-- ==== Sys2Proof/Laws/State.lean ====
section
/-! SUPPORT. What each update of State does to each field: one lemma per field per update, true by rfl, so that no
later proof unfolds a record update. -/

namespace Sys2Proof.Machine

@[simp] theorem State.latch_len (s : State) (v : Word) : (s.latch v).len = s.len := rfl
@[simp] theorem State.latch_lang (s : State) (v : Word) : (s.latch v).lang = s.lang := rfl
@[simp] theorem State.latch_ent (s : State) (v : Word) : (s.latch v).ent = s.ent := rfl
@[simp] theorem State.latch_dig (s : State) (v : Word) : (s.latch v).dig = s.dig := rfl
@[simp] theorem State.latch_cs (s : State) (v : Word) : (s.latch v).cs = s.cs := rfl
@[simp] theorem State.latch_csLen (s : State) (v : Word) : (s.latch v).csLen = s.csLen := rfl
@[simp] theorem State.latch_nWords (s : State) (v : Word) : (s.latch v).nWords = s.nWords := rfl
@[simp] theorem State.latch_idx (s : State) (v : Word) : (s.latch v).idx = s.idx := rfl
@[simp] theorem State.latch_wIdx (s : State) (v : Word) : (s.latch v).wIdx = s.wIdx := rfl
@[simp] theorem State.latch_wLen (s : State) (v : Word) : (s.latch v).wLen = s.wLen := rfl
@[simp] theorem State.latch_word (s : State) (v : Word) : (s.latch v).word = s.word := rfl
@[simp] theorem State.latch_busy (s : State) (v : Word) : (s.latch v).busy = true := rfl
@[simp] theorem State.latch_done (s : State) (v : Word) : (s.latch v).done = false := rfl
@[simp] theorem State.latch_err (s : State) (v : Word) : (s.latch v).err = false := rfl
@[simp] theorem State.latch_ovr (s : State) (v : Word) : (s.latch v).ovr = s.ovr := rfl
@[simp] theorem State.latch_errCode (s : State) (v : Word) : (s.latch v).errCode = 0 := rfl
@[simp] theorem State.latch_csValid (s : State) (v : Word) : (s.latch v).csValid = s.csValid := rfl
@[simp] theorem State.latch_idxValid (s : State) (v : Word) : (s.latch v).idxValid = s.idxValid := rfl
@[simp] theorem State.latch_wordValid (s : State) (v : Word) : (s.latch v).wordValid = s.wordValid := rfl
@[simp] theorem State.latch_pend (s : State) (v : Word) : (s.latch v).pend = v := rfl
@[simp] theorem State.latch_cfg (s : State) (v : Word) : (s.latch v).cfg = s.cfg := rfl
@[simp] theorem State.latch_latency (s : State) (v : Word) : (s.latch v).latency = s.latency := rfl
@[simp] theorem State.latch_draws (s : State) (v : Word) : (s.latch v).draws = s.draws := rfl
@[simp] theorem State.latch_hostQ (s : State) (v : Word) : (s.latch v).hostQ = s.hostQ := rfl
@[simp] theorem State.latch_replies (s : State) (v : Word) : (s.latch v).replies = s.replies := rfl

@[simp] theorem State.issue_len (s : State) (v : Word) : (s.issue v).len = s.len := rfl
@[simp] theorem State.issue_lang (s : State) (v : Word) : (s.issue v).lang = s.lang := rfl
@[simp] theorem State.issue_ent (s : State) (v : Word) : (s.issue v).ent = s.ent := rfl
@[simp] theorem State.issue_dig (s : State) (v : Word) : (s.issue v).dig = s.dig := rfl
@[simp] theorem State.issue_cs (s : State) (v : Word) : (s.issue v).cs = s.cs := rfl
@[simp] theorem State.issue_csLen (s : State) (v : Word) : (s.issue v).csLen = s.csLen := rfl
@[simp] theorem State.issue_nWords (s : State) (v : Word) : (s.issue v).nWords = s.nWords := rfl
@[simp] theorem State.issue_idx (s : State) (v : Word) : (s.issue v).idx = s.idx := rfl
@[simp] theorem State.issue_wIdx (s : State) (v : Word) : (s.issue v).wIdx = s.wIdx := rfl
@[simp] theorem State.issue_wLen (s : State) (v : Word) : (s.issue v).wLen = s.wLen := rfl
@[simp] theorem State.issue_word (s : State) (v : Word) : (s.issue v).word = s.word := rfl
@[simp] theorem State.issue_busy (s : State) (v : Word) : (s.issue v).busy = true := rfl
@[simp] theorem State.issue_done (s : State) (v : Word) : (s.issue v).done = false := rfl
@[simp] theorem State.issue_err (s : State) (v : Word) : (s.issue v).err = false := rfl
@[simp] theorem State.issue_ovr (s : State) (v : Word) : (s.issue v).ovr = s.ovr := rfl
@[simp] theorem State.issue_errCode (s : State) (v : Word) : (s.issue v).errCode = 0 := rfl
@[simp] theorem State.issue_csValid (s : State) (v : Word) : (s.issue v).csValid = s.csValid := rfl
@[simp] theorem State.issue_idxValid (s : State) (v : Word) : (s.issue v).idxValid = s.idxValid := rfl
@[simp] theorem State.issue_wordValid (s : State) (v : Word) : (s.issue v).wordValid = s.wordValid := rfl
@[simp] theorem State.issue_pend (s : State) (v : Word) : (s.issue v).pend = v := rfl
@[simp] theorem State.issue_cfg (s : State) (v : Word) : (s.issue v).cfg = s.cfg := rfl
@[simp] theorem State.issue_latency (s : State) (v : Word) : (s.issue v).latency = Config.latency s.draws := rfl
@[simp] theorem State.issue_draws (s : State) (v : Word) : (s.issue v).draws = s.draws + 1 := rfl
@[simp] theorem State.issue_hostQ (s : State) (v : Word) : (s.issue v).hostQ = s.hostQ := rfl
@[simp] theorem State.issue_replies (s : State) (v : Word) : (s.issue v).replies = s.replies := rfl

@[simp] theorem State.issueNow_len (s : State) (v : Word) : (s.issueNow v).len = s.len := rfl
@[simp] theorem State.issueNow_lang (s : State) (v : Word) : (s.issueNow v).lang = s.lang := rfl
@[simp] theorem State.issueNow_ent (s : State) (v : Word) : (s.issueNow v).ent = s.ent := rfl
@[simp] theorem State.issueNow_dig (s : State) (v : Word) : (s.issueNow v).dig = s.dig := rfl
@[simp] theorem State.issueNow_cs (s : State) (v : Word) : (s.issueNow v).cs = s.cs := rfl
@[simp] theorem State.issueNow_csLen (s : State) (v : Word) : (s.issueNow v).csLen = s.csLen := rfl
@[simp] theorem State.issueNow_nWords (s : State) (v : Word) : (s.issueNow v).nWords = s.nWords := rfl
@[simp] theorem State.issueNow_idx (s : State) (v : Word) : (s.issueNow v).idx = s.idx := rfl
@[simp] theorem State.issueNow_wIdx (s : State) (v : Word) : (s.issueNow v).wIdx = s.wIdx := rfl
@[simp] theorem State.issueNow_wLen (s : State) (v : Word) : (s.issueNow v).wLen = s.wLen := rfl
@[simp] theorem State.issueNow_word (s : State) (v : Word) : (s.issueNow v).word = s.word := rfl
@[simp] theorem State.issueNow_busy (s : State) (v : Word) : (s.issueNow v).busy = true := rfl
@[simp] theorem State.issueNow_done (s : State) (v : Word) : (s.issueNow v).done = false := rfl
@[simp] theorem State.issueNow_err (s : State) (v : Word) : (s.issueNow v).err = false := rfl
@[simp] theorem State.issueNow_ovr (s : State) (v : Word) : (s.issueNow v).ovr = s.ovr := rfl
@[simp] theorem State.issueNow_errCode (s : State) (v : Word) : (s.issueNow v).errCode = 0 := rfl
@[simp] theorem State.issueNow_csValid (s : State) (v : Word) : (s.issueNow v).csValid = s.csValid := rfl
@[simp] theorem State.issueNow_idxValid (s : State) (v : Word) : (s.issueNow v).idxValid = s.idxValid := rfl
@[simp] theorem State.issueNow_wordValid (s : State) (v : Word) : (s.issueNow v).wordValid = s.wordValid := rfl
@[simp] theorem State.issueNow_pend (s : State) (v : Word) : (s.issueNow v).pend = v := rfl
@[simp] theorem State.issueNow_cfg (s : State) (v : Word) : (s.issueNow v).cfg = s.cfg := rfl
@[simp] theorem State.issueNow_latency (s : State) (v : Word) : (s.issueNow v).latency = 0 := rfl
@[simp] theorem State.issueNow_draws (s : State) (v : Word) : (s.issueNow v).draws = s.draws := rfl
@[simp] theorem State.issueNow_hostQ (s : State) (v : Word) : (s.issueNow v).hostQ = s.hostQ := rfl
@[simp] theorem State.issueNow_replies (s : State) (v : Word) : (s.issueNow v).replies = s.replies := rfl

@[simp] theorem State.clearDerived_len (s : State) : (s.clearDerived).len = s.len := rfl
@[simp] theorem State.clearDerived_lang (s : State) : (s.clearDerived).lang = s.lang := rfl
@[simp] theorem State.clearDerived_ent (s : State) : (s.clearDerived).ent = s.ent := rfl
@[simp] theorem State.clearDerived_dig (s : State) : (s.clearDerived).dig = Vector.replicate 8 0 := rfl
@[simp] theorem State.clearDerived_cs (s : State) : (s.clearDerived).cs = 0 := rfl
@[simp] theorem State.clearDerived_csLen (s : State) : (s.clearDerived).csLen = 0 := rfl
@[simp] theorem State.clearDerived_nWords (s : State) : (s.clearDerived).nWords = 0 := rfl
@[simp] theorem State.clearDerived_idx (s : State) : (s.clearDerived).idx = Vector.replicate 24 0 := rfl
@[simp] theorem State.clearDerived_wIdx (s : State) : (s.clearDerived).wIdx = s.wIdx := rfl
@[simp] theorem State.clearDerived_wLen (s : State) : (s.clearDerived).wLen = s.wLen := rfl
@[simp] theorem State.clearDerived_word (s : State) : (s.clearDerived).word = s.word := rfl
@[simp] theorem State.clearDerived_busy (s : State) : (s.clearDerived).busy = s.busy := rfl
@[simp] theorem State.clearDerived_done (s : State) : (s.clearDerived).done = s.done := rfl
@[simp] theorem State.clearDerived_err (s : State) : (s.clearDerived).err = s.err := rfl
@[simp] theorem State.clearDerived_ovr (s : State) : (s.clearDerived).ovr = s.ovr := rfl
@[simp] theorem State.clearDerived_errCode (s : State) : (s.clearDerived).errCode = s.errCode := rfl
@[simp] theorem State.clearDerived_csValid (s : State) : (s.clearDerived).csValid = false := rfl
@[simp] theorem State.clearDerived_idxValid (s : State) : (s.clearDerived).idxValid = false := rfl
@[simp] theorem State.clearDerived_wordValid (s : State) : (s.clearDerived).wordValid = s.wordValid := rfl
@[simp] theorem State.clearDerived_pend (s : State) : (s.clearDerived).pend = s.pend := rfl
@[simp] theorem State.clearDerived_cfg (s : State) : (s.clearDerived).cfg = s.cfg := rfl
@[simp] theorem State.clearDerived_latency (s : State) : (s.clearDerived).latency = s.latency := rfl
@[simp] theorem State.clearDerived_draws (s : State) : (s.clearDerived).draws = s.draws := rfl
@[simp] theorem State.clearDerived_hostQ (s : State) : (s.clearDerived).hostQ = s.hostQ := rfl
@[simp] theorem State.clearDerived_replies (s : State) : (s.clearDerived).replies = s.replies := rfl

@[simp] theorem State.clearWord_len (s : State) : (s.clearWord).len = s.len := rfl
@[simp] theorem State.clearWord_lang (s : State) : (s.clearWord).lang = s.lang := rfl
@[simp] theorem State.clearWord_ent (s : State) : (s.clearWord).ent = s.ent := rfl
@[simp] theorem State.clearWord_dig (s : State) : (s.clearWord).dig = s.dig := rfl
@[simp] theorem State.clearWord_cs (s : State) : (s.clearWord).cs = s.cs := rfl
@[simp] theorem State.clearWord_csLen (s : State) : (s.clearWord).csLen = s.csLen := rfl
@[simp] theorem State.clearWord_nWords (s : State) : (s.clearWord).nWords = s.nWords := rfl
@[simp] theorem State.clearWord_idx (s : State) : (s.clearWord).idx = s.idx := rfl
@[simp] theorem State.clearWord_wIdx (s : State) : (s.clearWord).wIdx = 0 := rfl
@[simp] theorem State.clearWord_wLen (s : State) : (s.clearWord).wLen = 0 := rfl
@[simp] theorem State.clearWord_word (s : State) : (s.clearWord).word = Vector.replicate 8 0 := rfl
@[simp] theorem State.clearWord_busy (s : State) : (s.clearWord).busy = s.busy := rfl
@[simp] theorem State.clearWord_done (s : State) : (s.clearWord).done = s.done := rfl
@[simp] theorem State.clearWord_err (s : State) : (s.clearWord).err = s.err := rfl
@[simp] theorem State.clearWord_ovr (s : State) : (s.clearWord).ovr = s.ovr := rfl
@[simp] theorem State.clearWord_errCode (s : State) : (s.clearWord).errCode = s.errCode := rfl
@[simp] theorem State.clearWord_csValid (s : State) : (s.clearWord).csValid = s.csValid := rfl
@[simp] theorem State.clearWord_idxValid (s : State) : (s.clearWord).idxValid = s.idxValid := rfl
@[simp] theorem State.clearWord_wordValid (s : State) : (s.clearWord).wordValid = false := rfl
@[simp] theorem State.clearWord_pend (s : State) : (s.clearWord).pend = s.pend := rfl
@[simp] theorem State.clearWord_cfg (s : State) : (s.clearWord).cfg = s.cfg := rfl
@[simp] theorem State.clearWord_latency (s : State) : (s.clearWord).latency = s.latency := rfl
@[simp] theorem State.clearWord_draws (s : State) : (s.clearWord).draws = s.draws := rfl
@[simp] theorem State.clearWord_hostQ (s : State) : (s.clearWord).hostQ = s.hostQ := rfl
@[simp] theorem State.clearWord_replies (s : State) : (s.clearWord).replies = s.replies := rfl

@[simp] theorem State.complete_len (s : State) : (s.complete).len = s.len := rfl
@[simp] theorem State.complete_lang (s : State) : (s.complete).lang = s.lang := rfl
@[simp] theorem State.complete_ent (s : State) : (s.complete).ent = s.ent := rfl
@[simp] theorem State.complete_dig (s : State) : (s.complete).dig = s.dig := rfl
@[simp] theorem State.complete_cs (s : State) : (s.complete).cs = s.cs := rfl
@[simp] theorem State.complete_csLen (s : State) : (s.complete).csLen = s.csLen := rfl
@[simp] theorem State.complete_nWords (s : State) : (s.complete).nWords = s.nWords := rfl
@[simp] theorem State.complete_idx (s : State) : (s.complete).idx = s.idx := rfl
@[simp] theorem State.complete_wIdx (s : State) : (s.complete).wIdx = s.wIdx := rfl
@[simp] theorem State.complete_wLen (s : State) : (s.complete).wLen = s.wLen := rfl
@[simp] theorem State.complete_word (s : State) : (s.complete).word = s.word := rfl
@[simp] theorem State.complete_busy (s : State) : (s.complete).busy = false := rfl
@[simp] theorem State.complete_done (s : State) : (s.complete).done = true := rfl
@[simp] theorem State.complete_err (s : State) : (s.complete).err = s.err := rfl
@[simp] theorem State.complete_ovr (s : State) : (s.complete).ovr = s.ovr := rfl
@[simp] theorem State.complete_errCode (s : State) : (s.complete).errCode = s.errCode := rfl
@[simp] theorem State.complete_csValid (s : State) : (s.complete).csValid = s.csValid := rfl
@[simp] theorem State.complete_idxValid (s : State) : (s.complete).idxValid = s.idxValid := rfl
@[simp] theorem State.complete_wordValid (s : State) : (s.complete).wordValid = s.wordValid := rfl
@[simp] theorem State.complete_pend (s : State) : (s.complete).pend = s.pend := rfl
@[simp] theorem State.complete_cfg (s : State) : (s.complete).cfg = s.cfg := rfl
@[simp] theorem State.complete_latency (s : State) : (s.complete).latency = s.latency := rfl
@[simp] theorem State.complete_draws (s : State) : (s.complete).draws = s.draws := rfl
@[simp] theorem State.complete_hostQ (s : State) : (s.complete).hostQ = s.hostQ := rfl
@[simp] theorem State.complete_replies (s : State) : (s.complete).replies = s.replies := rfl

@[simp] theorem State.dropWrite_len (s : State) : (s.dropWrite).len = s.len := rfl
@[simp] theorem State.dropWrite_lang (s : State) : (s.dropWrite).lang = s.lang := rfl
@[simp] theorem State.dropWrite_ent (s : State) : (s.dropWrite).ent = s.ent := rfl
@[simp] theorem State.dropWrite_dig (s : State) : (s.dropWrite).dig = s.dig := rfl
@[simp] theorem State.dropWrite_cs (s : State) : (s.dropWrite).cs = s.cs := rfl
@[simp] theorem State.dropWrite_csLen (s : State) : (s.dropWrite).csLen = s.csLen := rfl
@[simp] theorem State.dropWrite_nWords (s : State) : (s.dropWrite).nWords = s.nWords := rfl
@[simp] theorem State.dropWrite_idx (s : State) : (s.dropWrite).idx = s.idx := rfl
@[simp] theorem State.dropWrite_wIdx (s : State) : (s.dropWrite).wIdx = s.wIdx := rfl
@[simp] theorem State.dropWrite_wLen (s : State) : (s.dropWrite).wLen = s.wLen := rfl
@[simp] theorem State.dropWrite_word (s : State) : (s.dropWrite).word = s.word := rfl
@[simp] theorem State.dropWrite_busy (s : State) : (s.dropWrite).busy = s.busy := rfl
@[simp] theorem State.dropWrite_done (s : State) : (s.dropWrite).done = s.done := rfl
@[simp] theorem State.dropWrite_err (s : State) : (s.dropWrite).err = s.err := rfl
@[simp] theorem State.dropWrite_ovr (s : State) : (s.dropWrite).ovr = true := rfl
@[simp] theorem State.dropWrite_errCode (s : State) : (s.dropWrite).errCode = s.errCode := rfl
@[simp] theorem State.dropWrite_csValid (s : State) : (s.dropWrite).csValid = s.csValid := rfl
@[simp] theorem State.dropWrite_idxValid (s : State) : (s.dropWrite).idxValid = s.idxValid := rfl
@[simp] theorem State.dropWrite_wordValid (s : State) : (s.dropWrite).wordValid = s.wordValid := rfl
@[simp] theorem State.dropWrite_pend (s : State) : (s.dropWrite).pend = s.pend := rfl
@[simp] theorem State.dropWrite_cfg (s : State) : (s.dropWrite).cfg = s.cfg := rfl
@[simp] theorem State.dropWrite_latency (s : State) : (s.dropWrite).latency = s.latency := rfl
@[simp] theorem State.dropWrite_draws (s : State) : (s.dropWrite).draws = s.draws := rfl
@[simp] theorem State.dropWrite_hostQ (s : State) : (s.dropWrite).hostQ = s.hostQ := rfl
@[simp] theorem State.dropWrite_replies (s : State) : (s.dropWrite).replies = s.replies := rfl

@[simp] theorem State.invalidateDerived_len (s : State) : (s.invalidateDerived).len = s.len := rfl
@[simp] theorem State.invalidateDerived_lang (s : State) : (s.invalidateDerived).lang = s.lang := rfl
@[simp] theorem State.invalidateDerived_ent (s : State) : (s.invalidateDerived).ent = s.ent := rfl
@[simp] theorem State.invalidateDerived_dig (s : State) : (s.invalidateDerived).dig = s.dig := rfl
@[simp] theorem State.invalidateDerived_cs (s : State) : (s.invalidateDerived).cs = s.cs := rfl
@[simp] theorem State.invalidateDerived_csLen (s : State) : (s.invalidateDerived).csLen = s.csLen := rfl
@[simp] theorem State.invalidateDerived_nWords (s : State) : (s.invalidateDerived).nWords = s.nWords := rfl
@[simp] theorem State.invalidateDerived_idx (s : State) : (s.invalidateDerived).idx = s.idx := rfl
@[simp] theorem State.invalidateDerived_wIdx (s : State) : (s.invalidateDerived).wIdx = s.wIdx := rfl
@[simp] theorem State.invalidateDerived_wLen (s : State) : (s.invalidateDerived).wLen = s.wLen := rfl
@[simp] theorem State.invalidateDerived_word (s : State) : (s.invalidateDerived).word = s.word := rfl
@[simp] theorem State.invalidateDerived_busy (s : State) : (s.invalidateDerived).busy = s.busy := rfl
@[simp] theorem State.invalidateDerived_done (s : State) : (s.invalidateDerived).done = s.done := rfl
@[simp] theorem State.invalidateDerived_err (s : State) : (s.invalidateDerived).err = s.err := rfl
@[simp] theorem State.invalidateDerived_ovr (s : State) : (s.invalidateDerived).ovr = s.ovr := rfl
@[simp] theorem State.invalidateDerived_errCode (s : State) : (s.invalidateDerived).errCode = s.errCode := rfl
@[simp] theorem State.invalidateDerived_csValid (s : State) : (s.invalidateDerived).csValid = false := rfl
@[simp] theorem State.invalidateDerived_idxValid (s : State) : (s.invalidateDerived).idxValid = false := rfl
@[simp] theorem State.invalidateDerived_wordValid (s : State) : (s.invalidateDerived).wordValid = s.wordValid := rfl
@[simp] theorem State.invalidateDerived_pend (s : State) : (s.invalidateDerived).pend = s.pend := rfl
@[simp] theorem State.invalidateDerived_cfg (s : State) : (s.invalidateDerived).cfg = s.cfg := rfl
@[simp] theorem State.invalidateDerived_latency (s : State) : (s.invalidateDerived).latency = s.latency := rfl
@[simp] theorem State.invalidateDerived_draws (s : State) : (s.invalidateDerived).draws = s.draws := rfl
@[simp] theorem State.invalidateDerived_hostQ (s : State) : (s.invalidateDerived).hostQ = s.hostQ := rfl
@[simp] theorem State.invalidateDerived_replies (s : State) : (s.invalidateDerived).replies = s.replies := rfl

@[simp] theorem State.invalidateWord_len (s : State) : (s.invalidateWord).len = s.len := rfl
@[simp] theorem State.invalidateWord_lang (s : State) : (s.invalidateWord).lang = s.lang := rfl
@[simp] theorem State.invalidateWord_ent (s : State) : (s.invalidateWord).ent = s.ent := rfl
@[simp] theorem State.invalidateWord_dig (s : State) : (s.invalidateWord).dig = s.dig := rfl
@[simp] theorem State.invalidateWord_cs (s : State) : (s.invalidateWord).cs = s.cs := rfl
@[simp] theorem State.invalidateWord_csLen (s : State) : (s.invalidateWord).csLen = s.csLen := rfl
@[simp] theorem State.invalidateWord_nWords (s : State) : (s.invalidateWord).nWords = s.nWords := rfl
@[simp] theorem State.invalidateWord_idx (s : State) : (s.invalidateWord).idx = s.idx := rfl
@[simp] theorem State.invalidateWord_wIdx (s : State) : (s.invalidateWord).wIdx = s.wIdx := rfl
@[simp] theorem State.invalidateWord_wLen (s : State) : (s.invalidateWord).wLen = s.wLen := rfl
@[simp] theorem State.invalidateWord_word (s : State) : (s.invalidateWord).word = s.word := rfl
@[simp] theorem State.invalidateWord_busy (s : State) : (s.invalidateWord).busy = s.busy := rfl
@[simp] theorem State.invalidateWord_done (s : State) : (s.invalidateWord).done = s.done := rfl
@[simp] theorem State.invalidateWord_err (s : State) : (s.invalidateWord).err = s.err := rfl
@[simp] theorem State.invalidateWord_ovr (s : State) : (s.invalidateWord).ovr = s.ovr := rfl
@[simp] theorem State.invalidateWord_errCode (s : State) : (s.invalidateWord).errCode = s.errCode := rfl
@[simp] theorem State.invalidateWord_csValid (s : State) : (s.invalidateWord).csValid = s.csValid := rfl
@[simp] theorem State.invalidateWord_idxValid (s : State) : (s.invalidateWord).idxValid = s.idxValid := rfl
@[simp] theorem State.invalidateWord_wordValid (s : State) : (s.invalidateWord).wordValid = false := rfl
@[simp] theorem State.invalidateWord_pend (s : State) : (s.invalidateWord).pend = s.pend := rfl
@[simp] theorem State.invalidateWord_cfg (s : State) : (s.invalidateWord).cfg = s.cfg := rfl
@[simp] theorem State.invalidateWord_latency (s : State) : (s.invalidateWord).latency = s.latency := rfl
@[simp] theorem State.invalidateWord_draws (s : State) : (s.invalidateWord).draws = s.draws := rfl
@[simp] theorem State.invalidateWord_hostQ (s : State) : (s.invalidateWord).hostQ = s.hostQ := rfl
@[simp] theorem State.invalidateWord_replies (s : State) : (s.invalidateWord).replies = s.replies := rfl

@[simp] theorem State.writeChecksum_len (s : State) (c : Nat) : (s.writeChecksum c).len = s.len := rfl
@[simp] theorem State.writeChecksum_lang (s : State) (c : Nat) : (s.writeChecksum c).lang = s.lang := rfl
@[simp] theorem State.writeChecksum_ent (s : State) (c : Nat) : (s.writeChecksum c).ent = s.ent := rfl
@[simp] theorem State.writeChecksum_dig (s : State) (c : Nat) : (s.writeChecksum c).dig = packBytes (sha256 s.entBytes) := rfl
@[simp] theorem State.writeChecksum_cs (s : State) (c : Nat) : (s.writeChecksum c).cs = checksumBits (sha256 s.entBytes) c := rfl
@[simp] theorem State.writeChecksum_csLen (s : State) (c : Nat) : (s.writeChecksum c).csLen = BitVec.ofNat 4 c := rfl
@[simp] theorem State.writeChecksum_nWords (s : State) (c : Nat) : (s.writeChecksum c).nWords = s.nWords := rfl
@[simp] theorem State.writeChecksum_idx (s : State) (c : Nat) : (s.writeChecksum c).idx = s.idx := rfl
@[simp] theorem State.writeChecksum_wIdx (s : State) (c : Nat) : (s.writeChecksum c).wIdx = s.wIdx := rfl
@[simp] theorem State.writeChecksum_wLen (s : State) (c : Nat) : (s.writeChecksum c).wLen = s.wLen := rfl
@[simp] theorem State.writeChecksum_word (s : State) (c : Nat) : (s.writeChecksum c).word = s.word := rfl
@[simp] theorem State.writeChecksum_busy (s : State) (c : Nat) : (s.writeChecksum c).busy = s.busy := rfl
@[simp] theorem State.writeChecksum_done (s : State) (c : Nat) : (s.writeChecksum c).done = s.done := rfl
@[simp] theorem State.writeChecksum_err (s : State) (c : Nat) : (s.writeChecksum c).err = s.err := rfl
@[simp] theorem State.writeChecksum_ovr (s : State) (c : Nat) : (s.writeChecksum c).ovr = s.ovr := rfl
@[simp] theorem State.writeChecksum_errCode (s : State) (c : Nat) : (s.writeChecksum c).errCode = s.errCode := rfl
@[simp] theorem State.writeChecksum_csValid (s : State) (c : Nat) : (s.writeChecksum c).csValid = true := rfl
@[simp] theorem State.writeChecksum_idxValid (s : State) (c : Nat) : (s.writeChecksum c).idxValid = s.idxValid := rfl
@[simp] theorem State.writeChecksum_wordValid (s : State) (c : Nat) : (s.writeChecksum c).wordValid = s.wordValid := rfl
@[simp] theorem State.writeChecksum_pend (s : State) (c : Nat) : (s.writeChecksum c).pend = s.pend := rfl
@[simp] theorem State.writeChecksum_cfg (s : State) (c : Nat) : (s.writeChecksum c).cfg = s.cfg := rfl
@[simp] theorem State.writeChecksum_latency (s : State) (c : Nat) : (s.writeChecksum c).latency = s.latency := rfl
@[simp] theorem State.writeChecksum_draws (s : State) (c : Nat) : (s.writeChecksum c).draws = s.draws := rfl
@[simp] theorem State.writeChecksum_hostQ (s : State) (c : Nat) : (s.writeChecksum c).hostQ = s.hostQ := rfl
@[simp] theorem State.writeChecksum_replies (s : State) (c : Nat) : (s.writeChecksum c).replies = s.replies := rfl

@[simp] theorem State.writeIndices_len (s : State) (n : Nat) : (s.writeIndices n).len = s.len := rfl
@[simp] theorem State.writeIndices_lang (s : State) (n : Nat) : (s.writeIndices n).lang = s.lang := rfl
@[simp] theorem State.writeIndices_ent (s : State) (n : Nat) : (s.writeIndices n).ent = s.ent := rfl
@[simp] theorem State.writeIndices_dig (s : State) (n : Nat) : (s.writeIndices n).dig = s.dig := rfl
@[simp] theorem State.writeIndices_cs (s : State) (n : Nat) : (s.writeIndices n).cs = s.cs := rfl
@[simp] theorem State.writeIndices_csLen (s : State) (n : Nat) : (s.writeIndices n).csLen = s.csLen := rfl
@[simp] theorem State.writeIndices_nWords (s : State) (n : Nat) : (s.writeIndices n).nWords = BitVec.ofNat 5 n := rfl
@[simp] theorem State.writeIndices_idx (s : State) (n : Nat) : (s.writeIndices n).idx = Vector.ofFn fun k => if k.val < n then group s.extendedValue n k.val else 0 := rfl
@[simp] theorem State.writeIndices_wIdx (s : State) (n : Nat) : (s.writeIndices n).wIdx = s.wIdx := rfl
@[simp] theorem State.writeIndices_wLen (s : State) (n : Nat) : (s.writeIndices n).wLen = s.wLen := rfl
@[simp] theorem State.writeIndices_word (s : State) (n : Nat) : (s.writeIndices n).word = s.word := rfl
@[simp] theorem State.writeIndices_busy (s : State) (n : Nat) : (s.writeIndices n).busy = s.busy := rfl
@[simp] theorem State.writeIndices_done (s : State) (n : Nat) : (s.writeIndices n).done = s.done := rfl
@[simp] theorem State.writeIndices_err (s : State) (n : Nat) : (s.writeIndices n).err = s.err := rfl
@[simp] theorem State.writeIndices_ovr (s : State) (n : Nat) : (s.writeIndices n).ovr = s.ovr := rfl
@[simp] theorem State.writeIndices_errCode (s : State) (n : Nat) : (s.writeIndices n).errCode = s.errCode := rfl
@[simp] theorem State.writeIndices_csValid (s : State) (n : Nat) : (s.writeIndices n).csValid = s.csValid := rfl
@[simp] theorem State.writeIndices_idxValid (s : State) (n : Nat) : (s.writeIndices n).idxValid = true := rfl
@[simp] theorem State.writeIndices_wordValid (s : State) (n : Nat) : (s.writeIndices n).wordValid = s.wordValid := rfl
@[simp] theorem State.writeIndices_pend (s : State) (n : Nat) : (s.writeIndices n).pend = s.pend := rfl
@[simp] theorem State.writeIndices_cfg (s : State) (n : Nat) : (s.writeIndices n).cfg = s.cfg := rfl
@[simp] theorem State.writeIndices_latency (s : State) (n : Nat) : (s.writeIndices n).latency = s.latency := rfl
@[simp] theorem State.writeIndices_draws (s : State) (n : Nat) : (s.writeIndices n).draws = s.draws := rfl
@[simp] theorem State.writeIndices_hostQ (s : State) (n : Nat) : (s.writeIndices n).hostQ = s.hostQ := rfl
@[simp] theorem State.writeIndices_replies (s : State) (n : Nat) : (s.writeIndices n).replies = s.replies := rfl

@[simp] theorem State.loadWord_len (s : State) (a : BitVec 11) : (s.loadWord a).len = s.len := rfl
@[simp] theorem State.loadWord_lang (s : State) (a : BitVec 11) : (s.loadWord a).lang = s.lang := rfl
@[simp] theorem State.loadWord_ent (s : State) (a : BitVec 11) : (s.loadWord a).ent = s.ent := rfl
@[simp] theorem State.loadWord_dig (s : State) (a : BitVec 11) : (s.loadWord a).dig = s.dig := rfl
@[simp] theorem State.loadWord_cs (s : State) (a : BitVec 11) : (s.loadWord a).cs = s.cs := rfl
@[simp] theorem State.loadWord_csLen (s : State) (a : BitVec 11) : (s.loadWord a).csLen = s.csLen := rfl
@[simp] theorem State.loadWord_nWords (s : State) (a : BitVec 11) : (s.loadWord a).nWords = s.nWords := rfl
@[simp] theorem State.loadWord_idx (s : State) (a : BitVec 11) : (s.loadWord a).idx = s.idx := rfl
@[simp] theorem State.loadWord_wIdx (s : State) (a : BitVec 11) : (s.loadWord a).wIdx = a := rfl
@[simp] theorem State.loadWord_wLen (s : State) (a : BitVec 11) : (s.loadWord a).wLen = BitVec.ofNat 6 (s.cfg.romRead s.lang.toNat a.toNat).length := rfl
@[simp] theorem State.loadWord_word (s : State) (a : BitVec 11) : (s.loadWord a).word = packBytes (s.cfg.romRead s.lang.toNat a.toNat) := rfl
@[simp] theorem State.loadWord_busy (s : State) (a : BitVec 11) : (s.loadWord a).busy = s.busy := rfl
@[simp] theorem State.loadWord_done (s : State) (a : BitVec 11) : (s.loadWord a).done = s.done := rfl
@[simp] theorem State.loadWord_err (s : State) (a : BitVec 11) : (s.loadWord a).err = s.err := rfl
@[simp] theorem State.loadWord_ovr (s : State) (a : BitVec 11) : (s.loadWord a).ovr = s.ovr := rfl
@[simp] theorem State.loadWord_errCode (s : State) (a : BitVec 11) : (s.loadWord a).errCode = s.errCode := rfl
@[simp] theorem State.loadWord_csValid (s : State) (a : BitVec 11) : (s.loadWord a).csValid = s.csValid := rfl
@[simp] theorem State.loadWord_idxValid (s : State) (a : BitVec 11) : (s.loadWord a).idxValid = s.idxValid := rfl
@[simp] theorem State.loadWord_wordValid (s : State) (a : BitVec 11) : (s.loadWord a).wordValid = true := rfl
@[simp] theorem State.loadWord_pend (s : State) (a : BitVec 11) : (s.loadWord a).pend = s.pend := rfl
@[simp] theorem State.loadWord_cfg (s : State) (a : BitVec 11) : (s.loadWord a).cfg = s.cfg := rfl
@[simp] theorem State.loadWord_latency (s : State) (a : BitVec 11) : (s.loadWord a).latency = s.latency := rfl
@[simp] theorem State.loadWord_draws (s : State) (a : BitVec 11) : (s.loadWord a).draws = s.draws := rfl
@[simp] theorem State.loadWord_hostQ (s : State) (a : BitVec 11) : (s.loadWord a).hostQ = s.hostQ := rfl
@[simp] theorem State.loadWord_replies (s : State) (a : BitVec 11) : (s.loadWord a).replies = s.replies := rfl

@[simp] theorem State.reply_len (s : State) (r : BusReply) : (s.reply r).len = s.len := rfl
@[simp] theorem State.reply_lang (s : State) (r : BusReply) : (s.reply r).lang = s.lang := rfl
@[simp] theorem State.reply_ent (s : State) (r : BusReply) : (s.reply r).ent = s.ent := rfl
@[simp] theorem State.reply_dig (s : State) (r : BusReply) : (s.reply r).dig = s.dig := rfl
@[simp] theorem State.reply_cs (s : State) (r : BusReply) : (s.reply r).cs = s.cs := rfl
@[simp] theorem State.reply_csLen (s : State) (r : BusReply) : (s.reply r).csLen = s.csLen := rfl
@[simp] theorem State.reply_nWords (s : State) (r : BusReply) : (s.reply r).nWords = s.nWords := rfl
@[simp] theorem State.reply_idx (s : State) (r : BusReply) : (s.reply r).idx = s.idx := rfl
@[simp] theorem State.reply_wIdx (s : State) (r : BusReply) : (s.reply r).wIdx = s.wIdx := rfl
@[simp] theorem State.reply_wLen (s : State) (r : BusReply) : (s.reply r).wLen = s.wLen := rfl
@[simp] theorem State.reply_word (s : State) (r : BusReply) : (s.reply r).word = s.word := rfl
@[simp] theorem State.reply_busy (s : State) (r : BusReply) : (s.reply r).busy = s.busy := rfl
@[simp] theorem State.reply_done (s : State) (r : BusReply) : (s.reply r).done = s.done := rfl
@[simp] theorem State.reply_err (s : State) (r : BusReply) : (s.reply r).err = s.err := rfl
@[simp] theorem State.reply_ovr (s : State) (r : BusReply) : (s.reply r).ovr = s.ovr := rfl
@[simp] theorem State.reply_errCode (s : State) (r : BusReply) : (s.reply r).errCode = s.errCode := rfl
@[simp] theorem State.reply_csValid (s : State) (r : BusReply) : (s.reply r).csValid = s.csValid := rfl
@[simp] theorem State.reply_idxValid (s : State) (r : BusReply) : (s.reply r).idxValid = s.idxValid := rfl
@[simp] theorem State.reply_wordValid (s : State) (r : BusReply) : (s.reply r).wordValid = s.wordValid := rfl
@[simp] theorem State.reply_pend (s : State) (r : BusReply) : (s.reply r).pend = s.pend := rfl
@[simp] theorem State.reply_cfg (s : State) (r : BusReply) : (s.reply r).cfg = s.cfg := rfl
@[simp] theorem State.reply_latency (s : State) (r : BusReply) : (s.reply r).latency = s.latency := rfl
@[simp] theorem State.reply_draws (s : State) (r : BusReply) : (s.reply r).draws = s.draws := rfl
@[simp] theorem State.reply_hostQ (s : State) (r : BusReply) : (s.reply r).hostQ = s.hostQ := rfl
@[simp] theorem State.reply_replies (s : State) (r : BusReply) : (s.reply r).replies = r :: s.replies := rfl

@[simp] theorem State.poll_len (s : State) : (s.poll).len = s.len := rfl
@[simp] theorem State.poll_lang (s : State) : (s.poll).lang = s.lang := rfl
@[simp] theorem State.poll_ent (s : State) : (s.poll).ent = s.ent := rfl
@[simp] theorem State.poll_dig (s : State) : (s.poll).dig = s.dig := rfl
@[simp] theorem State.poll_cs (s : State) : (s.poll).cs = s.cs := rfl
@[simp] theorem State.poll_csLen (s : State) : (s.poll).csLen = s.csLen := rfl
@[simp] theorem State.poll_nWords (s : State) : (s.poll).nWords = s.nWords := rfl
@[simp] theorem State.poll_idx (s : State) : (s.poll).idx = s.idx := rfl
@[simp] theorem State.poll_wIdx (s : State) : (s.poll).wIdx = s.wIdx := rfl
@[simp] theorem State.poll_wLen (s : State) : (s.poll).wLen = s.wLen := rfl
@[simp] theorem State.poll_word (s : State) : (s.poll).word = s.word := rfl
@[simp] theorem State.poll_busy (s : State) : (s.poll).busy = s.busy := rfl
@[simp] theorem State.poll_done (s : State) : (s.poll).done = s.done := rfl
@[simp] theorem State.poll_err (s : State) : (s.poll).err = s.err := rfl
@[simp] theorem State.poll_ovr (s : State) : (s.poll).ovr = s.ovr := rfl
@[simp] theorem State.poll_errCode (s : State) : (s.poll).errCode = s.errCode := rfl
@[simp] theorem State.poll_csValid (s : State) : (s.poll).csValid = s.csValid := rfl
@[simp] theorem State.poll_idxValid (s : State) : (s.poll).idxValid = s.idxValid := rfl
@[simp] theorem State.poll_wordValid (s : State) : (s.poll).wordValid = s.wordValid := rfl
@[simp] theorem State.poll_pend (s : State) : (s.poll).pend = s.pend := rfl
@[simp] theorem State.poll_cfg (s : State) : (s.poll).cfg = s.cfg := rfl
@[simp] theorem State.poll_latency (s : State) : (s.poll).latency = s.latency := rfl
@[simp] theorem State.poll_draws (s : State) : (s.poll).draws = s.draws := rfl
@[simp] theorem State.poll_hostQ (s : State) : (s.poll).hostQ = if s.busy then .wait :: s.hostQ else s.hostQ := rfl
@[simp] theorem State.poll_replies (s : State) : (s.poll).replies = .data s.statusWord :: s.replies := rfl

@[simp] theorem State.block_len (s : State) : (s.block).len = s.len := rfl
@[simp] theorem State.block_lang (s : State) : (s.block).lang = s.lang := rfl
@[simp] theorem State.block_ent (s : State) : (s.block).ent = s.ent := rfl
@[simp] theorem State.block_dig (s : State) : (s.block).dig = s.dig := rfl
@[simp] theorem State.block_cs (s : State) : (s.block).cs = s.cs := rfl
@[simp] theorem State.block_csLen (s : State) : (s.block).csLen = s.csLen := rfl
@[simp] theorem State.block_nWords (s : State) : (s.block).nWords = s.nWords := rfl
@[simp] theorem State.block_idx (s : State) : (s.block).idx = s.idx := rfl
@[simp] theorem State.block_wIdx (s : State) : (s.block).wIdx = s.wIdx := rfl
@[simp] theorem State.block_wLen (s : State) : (s.block).wLen = s.wLen := rfl
@[simp] theorem State.block_word (s : State) : (s.block).word = s.word := rfl
@[simp] theorem State.block_busy (s : State) : (s.block).busy = s.busy := rfl
@[simp] theorem State.block_done (s : State) : (s.block).done = s.done := rfl
@[simp] theorem State.block_err (s : State) : (s.block).err = s.err := rfl
@[simp] theorem State.block_ovr (s : State) : (s.block).ovr = s.ovr := rfl
@[simp] theorem State.block_errCode (s : State) : (s.block).errCode = s.errCode := rfl
@[simp] theorem State.block_csValid (s : State) : (s.block).csValid = s.csValid := rfl
@[simp] theorem State.block_idxValid (s : State) : (s.block).idxValid = s.idxValid := rfl
@[simp] theorem State.block_wordValid (s : State) : (s.block).wordValid = s.wordValid := rfl
@[simp] theorem State.block_pend (s : State) : (s.block).pend = s.pend := rfl
@[simp] theorem State.block_cfg (s : State) : (s.block).cfg = s.cfg := rfl
@[simp] theorem State.block_latency (s : State) : (s.block).latency = 0 := rfl
@[simp] theorem State.block_draws (s : State) : (s.block).draws = 0 := rfl
@[simp] theorem State.block_hostQ (s : State) : (s.block).hostQ = [] := rfl
@[simp] theorem State.block_replies (s : State) : (s.block).replies = [] := rfl

@[simp] theorem State.resetBlock_len (s : State) : (s.resetBlock).len = 0 := rfl
@[simp] theorem State.resetBlock_lang (s : State) : (s.resetBlock).lang = 0 := rfl
@[simp] theorem State.resetBlock_ent (s : State) : (s.resetBlock).ent = Vector.replicate 8 0 := rfl
@[simp] theorem State.resetBlock_dig (s : State) : (s.resetBlock).dig = Vector.replicate 8 0 := rfl
@[simp] theorem State.resetBlock_cs (s : State) : (s.resetBlock).cs = 0 := rfl
@[simp] theorem State.resetBlock_csLen (s : State) : (s.resetBlock).csLen = 0 := rfl
@[simp] theorem State.resetBlock_nWords (s : State) : (s.resetBlock).nWords = 0 := rfl
@[simp] theorem State.resetBlock_idx (s : State) : (s.resetBlock).idx = Vector.replicate 24 0 := rfl
@[simp] theorem State.resetBlock_wIdx (s : State) : (s.resetBlock).wIdx = 0 := rfl
@[simp] theorem State.resetBlock_wLen (s : State) : (s.resetBlock).wLen = 0 := rfl
@[simp] theorem State.resetBlock_word (s : State) : (s.resetBlock).word = Vector.replicate 8 0 := rfl
@[simp] theorem State.resetBlock_busy (s : State) : (s.resetBlock).busy = false := rfl
@[simp] theorem State.resetBlock_done (s : State) : (s.resetBlock).done = false := rfl
@[simp] theorem State.resetBlock_err (s : State) : (s.resetBlock).err = false := rfl
@[simp] theorem State.resetBlock_ovr (s : State) : (s.resetBlock).ovr = false := rfl
@[simp] theorem State.resetBlock_errCode (s : State) : (s.resetBlock).errCode = 0 := rfl
@[simp] theorem State.resetBlock_csValid (s : State) : (s.resetBlock).csValid = false := rfl
@[simp] theorem State.resetBlock_idxValid (s : State) : (s.resetBlock).idxValid = false := rfl
@[simp] theorem State.resetBlock_wordValid (s : State) : (s.resetBlock).wordValid = false := rfl
@[simp] theorem State.resetBlock_pend (s : State) : (s.resetBlock).pend = 0 := rfl
@[simp] theorem State.resetBlock_cfg (s : State) : (s.resetBlock).cfg = s.cfg := rfl
@[simp] theorem State.resetBlock_latency (s : State) : (s.resetBlock).latency = 0 := rfl
@[simp] theorem State.resetBlock_draws (s : State) : (s.resetBlock).draws = s.draws := rfl
@[simp] theorem State.resetBlock_hostQ (s : State) : (s.resetBlock).hostQ = s.hostQ := rfl
@[simp] theorem State.resetBlock_replies (s : State) : (s.resetBlock).replies = s.replies := rfl

@[simp] theorem State.raiseError_len (s : State) (fail : State → State) (e : ErrCode) :
    (s.raiseError fail e).len = (fail s).len := rfl
@[simp] theorem State.raiseError_lang (s : State) (fail : State → State) (e : ErrCode) :
    (s.raiseError fail e).lang = (fail s).lang := rfl
@[simp] theorem State.raiseError_ent (s : State) (fail : State → State) (e : ErrCode) :
    (s.raiseError fail e).ent = (fail s).ent := rfl
@[simp] theorem State.raiseError_dig (s : State) (fail : State → State) (e : ErrCode) :
    (s.raiseError fail e).dig = (fail s).dig := rfl
@[simp] theorem State.raiseError_cs (s : State) (fail : State → State) (e : ErrCode) :
    (s.raiseError fail e).cs = (fail s).cs := rfl
@[simp] theorem State.raiseError_csLen (s : State) (fail : State → State) (e : ErrCode) :
    (s.raiseError fail e).csLen = (fail s).csLen := rfl
@[simp] theorem State.raiseError_nWords (s : State) (fail : State → State) (e : ErrCode) :
    (s.raiseError fail e).nWords = (fail s).nWords := rfl
@[simp] theorem State.raiseError_idx (s : State) (fail : State → State) (e : ErrCode) :
    (s.raiseError fail e).idx = (fail s).idx := rfl
@[simp] theorem State.raiseError_wIdx (s : State) (fail : State → State) (e : ErrCode) :
    (s.raiseError fail e).wIdx = (fail s).wIdx := rfl
@[simp] theorem State.raiseError_wLen (s : State) (fail : State → State) (e : ErrCode) :
    (s.raiseError fail e).wLen = (fail s).wLen := rfl
@[simp] theorem State.raiseError_word (s : State) (fail : State → State) (e : ErrCode) :
    (s.raiseError fail e).word = (fail s).word := rfl
@[simp] theorem State.raiseError_busy (s : State) (fail : State → State) (e : ErrCode) :
    (s.raiseError fail e).busy = false := rfl
@[simp] theorem State.raiseError_done (s : State) (fail : State → State) (e : ErrCode) :
    (s.raiseError fail e).done = true := rfl
@[simp] theorem State.raiseError_err (s : State) (fail : State → State) (e : ErrCode) :
    (s.raiseError fail e).err = true := rfl
@[simp] theorem State.raiseError_ovr (s : State) (fail : State → State) (e : ErrCode) :
    (s.raiseError fail e).ovr = (fail s).ovr := rfl
@[simp] theorem State.raiseError_errCode (s : State) (fail : State → State) (e : ErrCode) :
    (s.raiseError fail e).errCode = e.code := rfl
@[simp] theorem State.raiseError_csValid (s : State) (fail : State → State) (e : ErrCode) :
    (s.raiseError fail e).csValid = (fail s).csValid := rfl
@[simp] theorem State.raiseError_idxValid (s : State) (fail : State → State) (e : ErrCode) :
    (s.raiseError fail e).idxValid = (fail s).idxValid := rfl
@[simp] theorem State.raiseError_wordValid (s : State) (fail : State → State) (e : ErrCode) :
    (s.raiseError fail e).wordValid = (fail s).wordValid := rfl
@[simp] theorem State.raiseError_pend (s : State) (fail : State → State) (e : ErrCode) :
    (s.raiseError fail e).pend = (fail s).pend := rfl
@[simp] theorem State.raiseError_cfg (s : State) (fail : State → State) (e : ErrCode) :
    (s.raiseError fail e).cfg = (fail s).cfg := rfl
@[simp] theorem State.raiseError_latency (s : State) (fail : State → State) (e : ErrCode) :
    (s.raiseError fail e).latency = (fail s).latency := rfl
@[simp] theorem State.raiseError_draws (s : State) (fail : State → State) (e : ErrCode) :
    (s.raiseError fail e).draws = (fail s).draws := rfl
@[simp] theorem State.raiseError_hostQ (s : State) (fail : State → State) (e : ErrCode) :
    (s.raiseError fail e).hostQ = (fail s).hostQ := rfl
@[simp] theorem State.raiseError_replies (s : State) (fail : State → State) (e : ErrCode) :
    (s.raiseError fail e).replies = (fail s).replies := rfl

@[simp] theorem State.finish_ok (s t : State) (fail : State → State) : s.finish fail (.ok t) = t.complete := rfl
@[simp] theorem State.finish_error (s : State) (fail : State → State) (e : ErrCode) :
    s.finish fail (.error e) = s.raiseError fail e := rfl
@[simp] theorem noFail_apply (s : State) : noFail s = s := rfl

end Sys2Proof.Machine
end

