-- ==== Sys2Proof/Laws/Ops.lean ====
section
/-! SUPPORT. What each shared operation can do, said once: the results of the bodies of the commands, of a host write, of
a host move and of a step. Later proofs cite these instead of unfolding the operations. -/

namespace Sys2Proof.Machine

theorem validLen_iff (l : Word) :
    validLen l = true ↔ l.toNat = 128 ∨ l.toNat = 160 ∨ l.toNat = 192 ∨ l.toNat = 224 ∨ l.toNat = 256 := by
  simp only [validLen, decide_eq_true_eq]
  omega

theorem checksumLen_le_of_validLen {l : Word} (h : validLen l = true) : checksumLen l ≤ 8 := by
  have := (validLen_iff l).1 h
  simp only [checksumLen]
  omega

/-- The two results of CHECKSUM's body: the assertion of 41_checksum.md R131 never fails. -/
theorem checksumBody_valid {s : State} (h : validLen s.len = true) :
    checksumBody s = .ok (s.writeChecksum (checksumLen s.len)) := by
  simp [checksumBody, h, checksumLen_le_of_validLen h]

theorem checksumBody_invalid {s : State} (h : validLen s.len = false) :
    checksumBody s = .error .invalidEntropyLength := by
  simp [checksumBody, h]

/-- The results of EXTRACT's body (42_slicer.md R154). -/
theorem extractBody_cases (s : State) :
    (s.csValid = false ∧ extractBody s = .error .sequenceError) ∨
    (s.csValid = true ∧ s.csLen.toNat ≤ 8 ∧ s.extendedWidth % 11 = 0 ∧ s.extendedWidth / 11 ≤ 24 ∧
      extractBody s = .ok (s.writeIndices (s.extendedWidth / 11))) ∨
    (s.csValid = true ∧ ¬ (s.csLen.toNat ≤ 8 ∧ s.extendedWidth % 11 = 0 ∧ s.extendedWidth / 11 ≤ 24) ∧
      extractBody s = .error .malformedBitLength) := by
  unfold extractBody
  cases s.csValid <;> simp
  split_ifs <;> simp_all

/-- The checks of 42_slicer.md R151 and R152 pass for the checksum length of a valid LEN. -/
theorem extendedWidth_of_validLen {s : State} (h : validLen s.len = true)
    (hc : s.csLen.toNat = s.len.toNat / 32) :
    s.csLen.toNat ≤ 8 ∧ s.extendedWidth % 11 = 0 ∧ s.extendedWidth / 11 = 3 * (s.len.toNat / 32) ∧
      s.extendedWidth / 11 ≤ 24 := by
  have := (validLen_iff _).1 h
  simp only [State.extendedWidth, hc]
  omega

theorem writeChecksum_csLen_toNat {s : State} (h : validLen s.len = true) :
    (s.writeChecksum (checksumLen s.len)).csLen.toNat = s.len.toNat / 32 := by
  have := checksumLen_le_of_validLen h
  simp only [State.writeChecksum_csLen, BitVec.toNat_ofNat, checksumLen] at *
  omega

/-- ENCODE's body on a valid LEN: both parts succeed (42_slicer.md R155). -/
theorem encodeBody_valid {s : State} (h : validLen s.len = true) :
    encodeBody s = .ok ((s.writeChecksum (checksumLen s.len)).writeIndices (3 * (s.len.toNat / 32))) := by
  have hc := writeChecksum_csLen_toNat h
  have hw := extendedWidth_of_validLen (s := s.writeChecksum (checksumLen s.len)) (by simpa using h) (by simpa using hc)
  rw [encodeBody, checksumBody_valid h]
  simp only [Except.bind]
  rcases extractBody_cases (s.writeChecksum (checksumLen s.len)) with h1 | h1 | h1
  · simp at h1
  · rw [h1.2.2.2.2, hw.2.2.1]
    rfl
  · exact absurd ⟨hw.1, hw.2.1, hw.2.2.2⟩ h1.2.1

theorem encodeBody_invalid {s : State} (h : validLen s.len = false) :
    encodeBody s = .error .invalidEntropyLength := by
  rw [encodeBody, checksumBody_invalid h]
  rfl

/-- The results of LOOKUP's body in the order of its checks (43_wordlist.md R175). -/
theorem lookupBody_cases (i : Nat) (s : State) :
    (s.idxValid = false ∧ lookupBody i s = .error .sequenceError) ∨
    (s.idxValid = true ∧ ¬ (i < s.nWords.toNat ∧ i < 24) ∧ lookupBody i s = .error .indexOutOfRange) ∨
    (s.idxValid = true ∧ (i < s.nWords.toNat ∧ i < 24) ∧ s.wlReady = false ∧
      lookupBody i s = .error .wordlistNotLoaded) ∨
    (s.idxValid = true ∧ s.wlReady = true ∧
      ∃ h : i < s.nWords.toNat ∧ i < 24, lookupBody i s = .ok (s.loadWord (s.idx[i]'h.2))) := by
  unfold lookupBody State.readWord
  cases s.idxValid <;> simp
  split_ifs <;> simp_all

/-- The results of RDROM's body in the order of its checks (43_wordlist.md R176). -/
theorem rdromBody_cases (a : Nat) (s : State) :
    (2048 ≤ a ∧ rdromBody a s = .error .indexOutOfRange) ∨
    (a < 2048 ∧ s.wlReady = false ∧ rdromBody a s = .error .wordlistNotLoaded) ∨
    (a < 2048 ∧ s.wlReady = true ∧ rdromBody a s = .ok (s.loadWord (BitVec.ofNat 11 a))) := by
  unfold rdromBody State.readWord
  split_ifs <;> simp_all

/-- The body of a command, and its `Fail` action (60_exceptions.md R214). -/
def bodyOf (i : Instr) (s : State) : ExecResult :=
  match i with
  | .nop      => nopBody s
  | .clear    => clearBody s
  | .checksum => checksumBody s
  | .extract  => extractBody s
  | .encode   => encodeBody s
  | .lookup i => lookupBody i s
  | .rdrom a  => rdromBody a s

/-- `Fail(op)` of each command (60_exceptions.md R214). -/
def failOf (i : Instr) : State → State :=
  match i with
  | .nop | .clear => noFail
  | .checksum | .extract | .encode => State.clearDerived
  | .lookup _ | .rdrom _ => State.clearWord

/-- Every command ends in a next state: its body, completed (40_sequencer.md R102, 60_exceptions.md R216). -/
theorem exec_eq (i : Instr) (s : State) : exec i s = .next (s.finish (failOf i) (bodyOf i s)) := by
  cases i <;> rfl

/-- The completion of every perform step, whatever the command gave (40_sequencer.md R102). -/
theorem finish_busy_done (s : State) (fail : State → State) (r : ExecResult) :
    (s.finish fail r).busy = false ∧ (s.finish fail r).done = true := by
  cases r <;> simp

/-- The perform step always ends in a next state (60_exceptions.md R216). -/
theorem perform_next (s : State) : ∃ t, perform s = .next t ∧ t.busy = false ∧ t.done = true := by
  unfold perform
  cases decode s.pend with
  | ok i => exact ⟨_, exec_eq i s, finish_busy_done _ _ _⟩
  | error w => exact ⟨_, rfl, finish_busy_done _ _ _⟩

/-- The two kinds of perform step (40_sequencer.md R102, R103). -/
theorem perform_cases {s t : State} (h : perform s = .next t) :
    (∃ i, decode s.pend = .ok i ∧ t = s.finish (failOf i) (bodyOf i s)) ∨
    (∃ w, decode s.pend = .error w ∧ t = s.raiseError noFail .illegalCommand) := by
  unfold perform at h
  cases hd : decode s.pend with
  | ok i =>
    simp only [hd, exec_eq] at h
    exact .inl ⟨i, rfl, by simpa using h.symm⟩
  | error w =>
    simp only [hd] at h
    exact .inr ⟨w, rfl, by simpa [performIllegal] using h.symm⟩

/-- What a host write of a register can do (20_memory.md R64). -/
theorem busWrite_cases (s : State) (r : Reg) (v : Word) :
    (s.busy = true ∧ s.busWrite r v = s.dropWrite) ∨
    (s.busy = false ∧ r = .cmd ∧ s.busWrite r v = s.issue v) ∨
    (r = .status ∧ s.busWrite r v = { s with ovr := false }) ∨
    (s.busy = false ∧ r = .len ∧ s.busWrite r v = { s with len := v }.invalidateDerived) ∨
    (s.busy = false ∧ r = .lang ∧ s.busWrite r v = { s with lang := v.setWidth 8 }.invalidateWord) ∨
    (s.busy = false ∧ ∃ k, r = .ent k ∧ s.busWrite r v = { s with ent := s.ent.set k v }.invalidateDerived) ∨
    s.busWrite r v = s := by
  by_cases hs : r = .status
  · subst hs
    cases hv : v.getLsbD 3
    · exact .inr (.inr (.inr (.inr (.inr (.inr (by simp only [State.busWrite, hv]; rfl))))))
    · exact .inr (.inr (.inl ⟨rfl, by simp only [State.busWrite, hv]; rfl⟩))
  · cases hb : s.busy <;> cases r <;> simp_all [State.busWrite]

/-- A host write touches neither the configuration nor the host's own part of the state. -/
theorem busWrite_frame (s : State) (r : Reg) (v : Word) :
    (s.busWrite r v).cfg = s.cfg ∧ (s.busWrite r v).hostQ = s.hostQ ∧ (s.busWrite r v).replies = s.replies := by
  rcases busWrite_cases s r v with h | h | h | h | h | ⟨_, k, h⟩ | h
  · rw [h.2]; exact ⟨rfl, rfl, rfl⟩
  · rw [h.2.2]; exact ⟨rfl, rfl, rfl⟩
  · rw [h.2]; exact ⟨rfl, rfl, rfl⟩
  · rw [h.2.2]; exact ⟨rfl, rfl, rfl⟩
  · rw [h.2.2]; exact ⟨rfl, rfl, rfl⟩
  · rw [h.2]; exact ⟨rfl, rfl, rfl⟩
  · rw [h]; exact ⟨rfl, rfl, rfl⟩

/-- A host read leaves the block as it is; only the model's counter of free values may move (20_memory.md R66). -/
theorem busRead_cases (s : State) (r : Reg) :
    s.busRead r = (s.regValue r, s) ∨
    (s.busy = true ∧ s.busRead r = (Config.busyRead s.draws, { s with draws := s.draws + 1 })) := by
  unfold State.busRead
  split
  · rename_i h
    exact .inr ⟨by simp_all, rfl⟩
  · exact .inl rfl

@[simp] theorem busRead_idle {s : State} (h : s.busy = false) (r : Reg) : s.busRead r = (s.regValue r, s) := by
  simp [State.busRead, h]

/-- The two outcomes of a launch (43_wordlist.md R171). -/
theorem launch_cases (p : Platform) :
    (p.ok = true ∧ launch p = .next (State.afterReset p)) ∨ (p.ok = false ∧ launch p = .refused .illFormedPlatform) := by
  unfold launch
  cases p.ok <;> simp

/-- What a move of the host can do when it does not stop (44_host_encoder.md R198). -/
theorem hostMove_cases {m : HostMove} {s t : State} (h : hostMove m s = .next t) :
    (∃ d x, t = { s with draws := d }.reply x) ∨ (∃ r v x, t = (s.busWrite r v).reply x) ∨ t = s.poll ∨
    t = s.resetBlock := by
  cases m with
  | read w addr =>
    simp only [hostMove] at h
    split at h
    · rename_i off _
      simp only [Host.Outcome.next.injEq] at h
      subst h
      unfold State.readAt
      cases accessReg w off with
      | none => exact .inl ⟨s.draws, _, rfl⟩
      | some r =>
        rcases busRead_cases s r with h1 | ⟨_, h1⟩ <;> simp only [h1]
        · exact .inl ⟨s.draws, _, rfl⟩
        · exact .inl ⟨_, _, rfl⟩
    · simp at h
  | write w addr v =>
    simp only [hostMove] at h
    split at h
    · rename_i off _
      simp only [Host.Outcome.next.injEq] at h
      subst h
      unfold State.writeAt
      cases accessReg w off with
      | none => exact .inl ⟨s.draws, _, rfl⟩
      | some r => exact .inr (.inl ⟨r, v, _, rfl⟩)
    · simp at h
  | wait =>
    simp only [hostMove, Host.Outcome.next.injEq] at h
    exact .inr (.inr (.inl h.symm))
  | reset =>
    simp only [hostMove, Host.Outcome.next.injEq] at h
    exact .inr (.inr (.inr h.symm))

/-- What a step can do when it does not stop: a perform step of the engine, a move of the host, or nothing while the
host has no move and the block is idle. -/
theorem step_cases {s t : State} (h : step s = .next t) :
    (s.busy = true ∧ perform s = .next t) ∨
    (s.busy = false ∧ s.hostQ = [] ∧ t = s) ∨
    (∃ m rest, s.hostQ = m :: rest ∧ hostMove m { s with hostQ := rest, latency := s.latency - 1 } = .next t) := by
  unfold step at h
  split at h
  · rename_i he
    simp only [State.engineTurn, Bool.and_eq_true] at he
    exact .inl ⟨he.1, h⟩
  · rename_i he
    unfold hostStep at h
    split at h
    · rename_i hq
      simp only [Host.Outcome.next.injEq] at h
      have hb : s.busy = false := by
        cases hb : s.busy
        · rfl
        · simp [State.engineTurn, hb, hq] at he
      exact .inr (.inl ⟨hb, hq, h.symm⟩)
    · rename_i m rest hq
      exact .inr (.inr ⟨m, rest, hq, h⟩)

end Sys2Proof.Machine
end

