-- ==== Sys2Proof/Laws/Host.lean ====
section
/-! SUPPORT. The model's own fields do not enter what a command does, and the host's moves in the forms the host's
sequences use. -/

namespace Sys2Proof.Machine

/-- The same block with the model's own fields, but for the configuration, replaced. -/
def State.withModel (s : State) (l d : Nat) (q : List HostMove) (r : List BusReply) : State :=
  { s with latency := l, draws := d, hostQ := q, replies := r }

@[simp] theorem withModel_csValid (s : State) (l d q r) : (s.withModel l d q r).csValid = s.csValid := rfl
@[simp] theorem withModel_idxValid (s : State) (l d q r) : (s.withModel l d q r).idxValid = s.idxValid := rfl
@[simp] theorem withModel_csLen (s : State) (l d q r) : (s.withModel l d q r).csLen = s.csLen := rfl
@[simp] theorem withModel_nWords (s : State) (l d q r) : (s.withModel l d q r).nWords = s.nWords := rfl
@[simp] theorem withModel_idx (s : State) (l d q r) : (s.withModel l d q r).idx = s.idx := rfl
@[simp] theorem withModel_wlReady (s : State) (l d q r) : (s.withModel l d q r).wlReady = s.wlReady := rfl
@[simp] theorem withModel_extendedWidth (s : State) (l d q r) :
    (s.withModel l d q r).extendedWidth = s.extendedWidth := rfl
@[simp] theorem withModel_statusWord (s : State) (l d q r) : (s.withModel l d q r).statusWord = s.statusWord := rfl
@[simp] theorem withModel_block (s : State) (l d q r) : (s.withModel l d q r).block = s.block := rfl

/-- No command reads or writes the model's own fields. -/
theorem finish_withModel (i : Instr) (s : State) (l d : Nat) (q : List HostMove) (r : List BusReply) :
    (s.withModel l d q r).finish (failOf i) (bodyOf i (s.withModel l d q r)) =
      (s.finish (failOf i) (bodyOf i s)).withModel l d q r := by
  cases i with
  | nop => rfl
  | clear => rfl
  | checksum =>
    cases hv : validLen s.len
    · rw [bodyOf, bodyOf, checksumBody_invalid (s := s.withModel l d q r) hv, checksumBody_invalid hv]; rfl
    · rw [bodyOf, bodyOf, checksumBody_valid (s := s.withModel l d q r) hv, checksumBody_valid hv]; rfl
  | encode =>
    cases hv : validLen s.len
    · rw [bodyOf, bodyOf, encodeBody_invalid (s := s.withModel l d q r) hv, encodeBody_invalid hv]; rfl
    · rw [bodyOf, bodyOf, encodeBody_valid (s := s.withModel l d q r) hv, encodeBody_valid hv]; rfl
  | extract =>
    have h : extractBody (s.withModel l d q r) = (extractBody s).map (·.withModel l d q r) := by
      unfold extractBody
      by_cases h1 : s.csValid = true <;> by_cases h2 : s.csLen.toNat ≤ 8 ∧ s.extendedWidth % 11 = 0 <;>
        by_cases h3 : s.extendedWidth / 11 ≤ 24 <;> simp [h1, h2, h3, Except.map] <;> rfl
    simp only [bodyOf, h]
    cases extractBody s <;> rfl
  | lookup i =>
    have h : lookupBody i (s.withModel l d q r) = (lookupBody i s).map (·.withModel l d q r) := by
      unfold lookupBody State.readWord
      by_cases h1 : s.idxValid = true <;> by_cases h2 : i < s.nWords.toNat ∧ i < 24 <;>
        by_cases h3 : s.wlReady = true <;> simp [h1, h2, h3, Except.map] <;> rfl
    simp only [bodyOf, h]
    cases lookupBody i s <;> rfl
  | rdrom a =>
    have h : rdromBody a (s.withModel l d q r) = (rdromBody a s).map (·.withModel l d q r) := by
      unfold rdromBody State.readWord
      by_cases h1 : a < 2048 <;> by_cases h3 : s.wlReady = true <;> simp [h1, h3, Except.map] <;> rfl
    simp only [bodyOf, h]
    cases rdromBody a s <;> rfl

theorem perform_withModel {s t : State} (h : perform s = .next t) (l d : Nat) (q : List HostMove)
    (r : List BusReply) : perform (s.withModel l d q r) = .next (t.withModel l d q r) := by
  have hp : (s.withModel l d q r).pend = s.pend := rfl
  rcases perform_cases h with ⟨i, hd, rfl⟩ | ⟨w, hd, rfl⟩
  · unfold perform; rw [hp, hd]; simp only [exec_eq, finish_withModel]
  · unfold perform; rw [hp, hd]; rfl

/-- A perform step leaves the model's own fields alone. -/
theorem perform_model_fields {s t : State} (h : perform s = .next t) :
    t.latency = s.latency ∧ t.draws = s.draws ∧ t.hostQ = s.hostQ ∧ t.replies = s.replies := by
  have h2 := perform_withModel h s.latency s.draws s.hostQ s.replies
  rw [show s.withModel s.latency s.draws s.hostQ s.replies = s from rfl, h] at h2
  simp only [Host.Outcome.next.injEq] at h2
  rw [h2]
  exact ⟨rfl, rfl, rfl, rfl⟩

/-- The eight writes of ENT, on an idle block (44_host_encoder.md R190). -/
theorem fillEntropy_eq (s : State) (hb : s.busy = false) (bs : List Byte) :
    s.fillEntropy bs = { s with ent := packBytes bs, csValid := false, idxValid := false } := by
  have h : List.finRange 8 = [0, 1, 2, 3, 4, 5, 6, 7] := by decide
  unfold State.fillEntropy
  rw [h]
  simp only [List.foldl, State.busWrite, State.invalidateDerived, hb, Bool.false_eq_true, ↓reduceIte]
  congr 1
  apply Vector.ext
  intro i hi
  interval_cases i <;> simp [packBytes]

/-- A command in its synchronous form on an idle block: issue, then its body, completed (30_encoding.md R88). -/
theorem command_eq {s : State} {v : Word} {i : Instr} (hb : s.busy = false) (hd : decode v = .ok i) :
    s.command v = .next ((s.issue v).finish (failOf i) (bodyOf i (s.issue v))) := by
  simp only [State.command, State.busWrite, hb, Bool.false_eq_true, ↓reduceIte, perform, State.issue_pend, hd, exec_eq]

end Sys2Proof.Machine
end

