-- ==== Sys2Proof/Laws/Platform.lean ====
section
/-! SUPPORT. What the table checks give (43_wordlist.md R171): a loaded table of a well-formed platform has 2048 distinct
well-formed entries, and the boot check (70_reset_and_hazards.md R233) leaves a well-formed platform. -/

namespace Sys2Proof.Machine

theorem entryOk_iff (m : Nat) (w : List Byte) :
    entryOk m w = true ↔ 1 ≤ w.length ∧ w.length ≤ m ∧ 0x20#8 ∉ w ∧ isUtf8 w = true := by
  simp [entryOk, and_assoc]

theorem tableOk_iff (m : Nat) (t : WordTable) :
    tableOk m t = true ↔ t.words.length = 2048 ∧ t.words.Nodup ∧ ∀ w ∈ t.words, entryOk m w = true := by
  simp [tableOk, and_assoc]

theorem platform_ok_iff (p : Platform) :
    p.ok = true ↔ (1 ≤ p.nLang ∧ p.nLang ≤ 256) ∧ (1 ≤ p.wordMax ∧ p.wordMax ≤ 32) ∧
      ∀ t ∈ p.tables, t.loaded = true → tableOk p.wordMax t = true := by
  simp only [Platform.ok, Bool.and_eq_true, decide_eq_true_eq, List.all_eq_true, Bool.or_eq_true,
    Bool.not_eq_true', and_assoc]
  constructor <;> rintro ⟨h1, h2, h3, h4, h⟩ <;> refine ⟨h1, h2, h3, h4, fun t ht => ?_⟩ <;> have := h t ht <;>
    cases ht : t.loaded <;> simp_all

/-- A loaded table is there. -/
theorem wlLoaded_iff (p : Platform) (l : Nat) :
    p.wlLoaded l = true ↔ ∃ t, p.tables[l]? = some t ∧ t.loaded = true := by
  unfold Platform.wlLoaded
  cases p.tables[l]? <;> simp

/-- What WLU reads from a loaded table of a well-formed platform is a well-formed entry (43_wordlist.md R171, R172). -/
theorem romRead_entryOk {p : Platform} (hp : p.ok = true) {l a : Nat} (hl : p.wlLoaded l = true) (ha : a < 2048) :
    entryOk p.wordMax (p.romRead l a) = true := by
  obtain ⟨t, ht, hld⟩ := (wlLoaded_iff p l).1 hl
  have hok := ((platform_ok_iff p).1 hp).2.2 t (List.mem_of_getElem? ht) hld
  obtain ⟨hlen, _, hall⟩ := (tableOk_iff _ _).1 hok
  have : t.words[a]? = some t.words[a] := List.getElem?_eq_getElem (by omega)
  simp only [Platform.romRead, ht, Option.map_some, Option.getD_some, this]
  exact hall _ (List.getElem_mem _)

theorem wlReady_wlLoaded {s : State} (h : s.wlReady = true) : s.cfg.wlLoaded s.lang.toNat = true := by
  simp_all [State.wlReady]

theorem romRead_length {s : State} (hp : s.cfg.ok = true) (h : s.wlReady = true) (a : BitVec 11) :
    1 ≤ (s.cfg.romRead s.lang.toNat a.toNat).length ∧
      (s.cfg.romRead s.lang.toNat a.toNat).length ≤ s.cfg.wordMax ∧ s.cfg.wordMax ≤ 32 := by
  have h1 := (entryOk_iff _ _).1 (romRead_entryOk hp (wlReady_wlLoaded h) a.isLt)
  exact ⟨h1.1, h1.2.1, ((platform_ok_iff _).1 hp).2.1.2⟩

/-- The boot check leaves a well-formed platform (70_reset_and_hazards.md R233). -/
theorem checked_ok (p : Platform) : p.checked.ok = true := by
  rw [platform_ok_iff]
  refine ⟨?_, ?_, ?_⟩
  · simp only [Platform.nLang, Platform.checked, List.length_map]
    split_ifs with h
    · simp
    · have : 0 < p.tables.length := List.length_pos_iff.2 h
      rw [List.length_take]
      omega
  · simp only [Platform.checked]
    omega
  · intro t ht hl
    simp only [Platform.checked, List.mem_map] at ht
    obtain ⟨u, _, rfl⟩ := ht
    simp only [Platform.checkTable, Bool.and_eq_true] at hl
    exact hl.2

end Sys2Proof.Machine
end

