-- ==== Sys2Proof/Laws/Invariant.lean ====
section
/-! SUPPORT. What each shared operation does to the invariant `Inv` (10_state.md R28-R38): one lemma per operation, each
from the invariant of the state before it. -/

namespace Sys2Proof.Machine

/-- The invariant is about the block alone. -/
theorem Inv.congr {s t : State} (hi : Inv s) (hb : t.block = s.block) : Inv t := by
  have e : ∀ {α} (f : State → α), f t.block = f s.block := fun f => by rw [hb]
  -- the fields the invariant reads, one equation each
  have h1 := e State.len; have h2 := e State.lang; have h3 := e State.ent; have h4 := e State.dig
  have h5 := e State.cs; have h6 := e State.csLen; have h7 := e State.nWords; have h8 := e State.idx
  have h9 := e State.wIdx; have h10 := e State.wLen; have h11 := e State.word; have h12 := e State.busy
  have h13 := e State.done; have h14 := e State.err; have h15 := e State.errCode; have h16 := e State.csValid
  have h17 := e State.idxValid; have h18 := e State.wordValid; have h19 := e State.cfg
  simp at h1 h2 h3 h4 h5 h6 h7 h8 h9 h10 h11 h12 h13 h14 h15 h16 h17 h18 h19
  have he : t.entBytes = s.entBytes := by simp [State.entBytes, h1, h3]
  have hx : t.extendedValue = s.extendedValue := by simp [State.extendedValue, he, h5, h6]
  have hw : t.wlReady = s.wlReady := by simp [State.wlReady, h2, h19]
  constructor
  · rw [h19]; exact hi.cfg_ok
  · rw [h12, h13, h14, h15]; exact hi.busy_clear
  · rw [h14, h15]; exact hi.err_code
  · rw [h15]; exact hi.err_produced
  · rw [h5, h6]; exact hi.cs_bound
  · rw [h7]; exact hi.nwords
  · rw [h7, h8]; exact hi.idx_tail
  · rw [h10, h19]; exact hi.wlen_bound
  · rw [h10, h11]; exact hi.word_tail
  · intro h; rw [h16] at h; obtain ⟨a, b, c, d⟩ := hi.cs_certified h
    exact ⟨by rwa [h1], by rwa [h4, he], by rwa [h6, h1], by rwa [h5, he, h6]⟩
  · intro h; rw [h17] at h; obtain ⟨a, b, c⟩ := hi.idx_certified h
    exact ⟨by rwa [h16], by rwa [h7, h1, h6], by rw [h7, h8, hx]; exact c⟩
  · intro h; rw [h18] at h; obtain ⟨a, b, c⟩ := hi.word_certified h
    exact ⟨by rwa [hw], by rwa [h10, h19, h2, h9], by rwa [h11, h19, h2, h9]⟩

/-- Every byte of a cleared array is 0. -/
theorem bytes_zero_getD (j : Nat) (hj : j < 32) : (bytesOfArray (Vector.replicate 8 0)).getD j 0 = 0 := by
  rw [bytesOfArray_getD _ _ hj]; simp [byteOfWord]

/-- ClearDerived (40_sequencer.md R108) keeps the invariant. -/
theorem Inv.clearDerived {s : State} (hi : Inv s) : Inv s.clearDerived := by
  constructor <;> simp
  · exact hi.cfg_ok
  · exact hi.busy_clear
  · exact hi.err_code
  · simpa using hi.err_produced
  · exact hi.wlen_bound
  · simpa using hi.word_tail
  · intro h; obtain ⟨a, b, c⟩ := hi.word_certified h
    exact ⟨a, b, c⟩

/-- ClearWord (40_sequencer.md R109) keeps the invariant. -/
theorem Inv.clearWord {s : State} (hi : Inv s) : Inv s.clearWord := by
  constructor <;> simp
  · exact hi.cfg_ok
  · exact hi.busy_clear
  · exact hi.err_code
  · simpa using hi.err_produced
  · exact hi.cs_bound
  · simpa using hi.nwords
  · exact hi.idx_tail
  · intro j hj; exact bytes_zero_getD j hj
  · intro h; obtain ⟨a, b, c, d⟩ := hi.cs_certified h; exact ⟨a, b, c, d⟩
  · intro h; obtain ⟨a, b, c⟩ := hi.idx_certified h; exact ⟨a, b, c⟩

/-- Completing a command keeps the invariant. -/
theorem Inv.complete {s : State} (hi : Inv s) : Inv s.complete := by
  constructor <;> simp
  · exact hi.cfg_ok
  · exact hi.err_code
  · simpa using hi.err_produced
  · exact hi.cs_bound
  · simpa using hi.nwords
  · exact hi.idx_tail
  · exact hi.wlen_bound
  · simpa using hi.word_tail
  · intro h; obtain ⟨a, b, c, d⟩ := hi.cs_certified h; exact ⟨a, b, c, d⟩
  · intro h; obtain ⟨a, b, c⟩ := hi.idx_certified h; exact ⟨a, b, c⟩
  · intro h; obtain ⟨a, b, c⟩ := hi.word_certified h; exact ⟨a, b, c⟩

/-- Taking an error that a reachable state can raise keeps the invariant. -/
theorem Inv.raise {s : State} {f : State → State} (hi : Inv (f s)) (e : ErrCode) (he : e ≠ .malformedBitLength)
    (he2 : e ≠ .randomSourceFailure) : Inv (s.raiseError f e) := by
  have hc := hi.complete
  constructor
  · exact hc.cfg_ok
  · simp
  · cases e <;> simp [ErrCode.code]
  · cases e <;> simp_all [ErrCode.code]
  · exact hc.cs_bound
  · exact hc.nwords
  · exact hc.idx_tail
  · exact hc.wlen_bound
  · exact hc.word_tail
  · intro h; obtain ⟨a, b, c, d⟩ := hc.cs_certified h; exact ⟨a, b, c, d⟩
  · intro h; obtain ⟨a, b, c⟩ := hc.idx_certified h; exact ⟨a, b, c⟩
  · intro h; obtain ⟨a, b, c⟩ := hc.word_certified h; exact ⟨a, b, c⟩

/-- The checksum fits its length (10_state.md R28, 41_checksum.md R130). -/
theorem checksumBits_lt (d : List Byte) (c : Nat) (hc : c ≤ 8) : (checksumBits d c).toNat < 2 ^ c := by
  have h := (d.getD 0 0).isLt
  simp only [checksumBits, BitVec.toNat_ushiftRight, Nat.shiftRight_eq_div_pow]
  rw [Nat.div_lt_iff_lt_mul (Nat.two_pow_pos _), ← pow_add, show c + (8 - c) = 8 by omega]
  exact h

/-- The writes of a successful CHECKSUM establish 10_state.md R36 and keep R37. -/
theorem Inv.writeChecksum {s : State} (hi : Inv s) (hv : validLen s.len = true) :
    Inv (s.writeChecksum (checksumLen s.len)) := by
  have hl := writeChecksum_csLen_toNat hv
  have h8 := checksumLen_le_of_validLen hv
  have hcert : CsCertified (s.writeChecksum (checksumLen s.len)) := by
    refine ⟨hv, rfl, hl, ?_⟩
    rw [hl]; rfl
  constructor
  · exact hi.cfg_ok
  · exact hi.busy_clear
  · exact hi.err_code
  · exact hi.err_produced
  · rw [hl]; exact checksumBits_lt _ _ h8
  · exact hi.nwords
  · exact hi.idx_tail
  · exact hi.wlen_bound
  · exact hi.word_tail
  · intro _; exact hcert
  · intro h
    obtain ⟨a, b, c⟩ := hi.idx_certified h
    obtain ⟨d, e, f, g⟩ := hi.cs_certified a
    have hcl : (s.writeChecksum (checksumLen s.len)).csLen = s.csLen := by
      apply BitVec.eq_of_toNat_eq; rw [hl, f]
    have hcs : (s.writeChecksum (checksumLen s.len)).cs = s.cs := by
      rw [g, f]; rfl
    refine ⟨rfl, ?_, ?_⟩
    · rw [hcl]; exact b
    · have : (s.writeChecksum (checksumLen s.len)).extendedValue = s.extendedValue := by
        unfold State.extendedValue; rw [hcl, hcs]; rfl
      rw [this]; exact c
  · intro h; obtain ⟨a, b, c⟩ := hi.word_certified h; exact ⟨a, b, c⟩

/-- The writes of a successful EXTRACT establish 10_state.md R37. -/
theorem Inv.writeIndices {s : State} (hi : Inv s) (hv : s.csValid = true) :
    Inv (s.writeIndices (s.extendedWidth / 11)) := by
  obtain ⟨d, e, f, g⟩ := hi.cs_certified hv
  have hw := extendedWidth_of_validLen d f
  have hvl := (validLen_iff _).1 d
  have hn : (s.writeIndices (s.extendedWidth / 11)).nWords.toNat = s.extendedWidth / 11 := by
    simp; omega
  constructor
  · exact hi.cfg_ok
  · exact hi.busy_clear
  · exact hi.err_code
  · exact hi.err_produced
  · exact hi.cs_bound
  · rw [hw.2.2.1]
    rcases hvl with h | h | h | h | h <;> simp [h]
  · intro k hk
    rw [hn] at hk
    simp; omega
  · exact hi.wlen_bound
  · exact hi.word_tail
  · intro h; exact ⟨d, e, f, g⟩
  · intro _
    refine ⟨hv, hn, ?_⟩
    intro k hk
    rw [hn] at hk ⊢
    simp [hk]; rfl
  · intro h; obtain ⟨a, b, c⟩ := hi.word_certified h; exact ⟨a, b, c⟩

/-- LoadWord establishes 10_state.md R38. -/
theorem Inv.loadWord {s : State} (hi : Inv s) (hr : s.wlReady = true) (a : BitVec 11) : Inv (s.loadWord a) := by
  have hl := romRead_length hi.cfg_ok hr a
  have hwl : (s.loadWord a).wLen.toNat = (s.cfg.romRead s.lang.toNat a.toNat).length := by simp; omega
  constructor
  · exact hi.cfg_ok
  · exact hi.busy_clear
  · exact hi.err_code
  · exact hi.err_produced
  · exact hi.cs_bound
  · exact hi.nwords
  · exact hi.idx_tail
  · rw [hwl]; exact hl.2.1
  · intro j hj hj2
    rw [hwl] at hj2
    simp only [State.loadWord_word]
    rw [bytesOfArray_packBytes_getD _ _ hj]
    simp [hj2]
  · intro h; obtain ⟨a, b, c, d⟩ := hi.cs_certified h; exact ⟨a, b, c, d⟩
  · intro h; obtain ⟨a, b, c⟩ := hi.idx_certified h; exact ⟨a, b, c⟩
  · intro _; exact ⟨hr, hwl, rfl⟩

/-- The state after reset meets the invariant on a well-formed platform. -/
theorem Inv.afterReset {p : Platform} (hp : p.ok = true) : Inv (State.afterReset p) := by
  constructor
  · exact hp
  all_goals simp [State.afterReset]
  intro j hj; exact bytes_zero_getD j hj

/-- A host write keeps the invariant (10_state.md R40). -/
theorem Inv.busWrite {s : State} (hi : Inv s) (r : Reg) (v : Word) : Inv (s.busWrite r v) := by
  have ovr : ∀ b, Inv { s with ovr := b } := fun b => by
    constructor
    · exact hi.cfg_ok
    · exact hi.busy_clear
    · exact hi.err_code
    · exact hi.err_produced
    · exact hi.cs_bound
    · exact hi.nwords
    · exact hi.idx_tail
    · exact hi.wlen_bound
    · exact hi.word_tail
    · intro h; obtain ⟨a, b, c, d⟩ := hi.cs_certified h; exact ⟨a, b, c, d⟩
    · intro h; obtain ⟨a, b, c⟩ := hi.idx_certified h; exact ⟨a, b, c⟩
    · intro h; obtain ⟨a, b, c⟩ := hi.word_certified h; exact ⟨a, b, c⟩
  rcases busWrite_cases s r v with h | h | h | h | h | ⟨hb, k, _, h⟩ | h
  · rw [h.2]; exact ovr _
  · rw [h.2.2]
    constructor
    · exact hi.cfg_ok
    · simp
    · simp
    · simp
    · exact hi.cs_bound
    · exact hi.nwords
    · exact hi.idx_tail
    · exact hi.wlen_bound
    · exact hi.word_tail
    · intro h; obtain ⟨a, b, c, d⟩ := hi.cs_certified h; exact ⟨a, b, c, d⟩
    · intro h; obtain ⟨a, b, c⟩ := hi.idx_certified h; exact ⟨a, b, c⟩
    · intro h; obtain ⟨a, b, c⟩ := hi.word_certified h; exact ⟨a, b, c⟩
  · rw [h.2]; exact ovr _
  · rw [h.2.2]
    constructor
    · exact hi.cfg_ok
    · exact hi.busy_clear
    · exact hi.err_code
    · exact hi.err_produced
    · exact hi.cs_bound
    · exact hi.nwords
    · exact hi.idx_tail
    · exact hi.wlen_bound
    · exact hi.word_tail
    · simp
    · simp
    · intro h; obtain ⟨a, b, c⟩ := hi.word_certified h; exact ⟨a, b, c⟩
  · rw [h.2.2]
    constructor
    · exact hi.cfg_ok
    · exact hi.busy_clear
    · exact hi.err_code
    · exact hi.err_produced
    · exact hi.cs_bound
    · exact hi.nwords
    · exact hi.idx_tail
    · exact hi.wlen_bound
    · exact hi.word_tail
    · intro h; obtain ⟨a, b, c, d⟩ := hi.cs_certified h; exact ⟨a, b, c, d⟩
    · intro h; obtain ⟨a, b, c⟩ := hi.idx_certified h; exact ⟨a, b, c⟩
    · simp
  · rw [h]
    constructor
    · exact hi.cfg_ok
    · exact hi.busy_clear
    · exact hi.err_code
    · exact hi.err_produced
    · exact hi.cs_bound
    · exact hi.nwords
    · exact hi.idx_tail
    · exact hi.wlen_bound
    · exact hi.word_tail
    · simp
    · simp
    · intro h; obtain ⟨a, b, c⟩ := hi.word_certified h; exact ⟨a, b, c⟩
  · rw [h]; exact hi

end Sys2Proof.Machine
end

