-- ==== Sys2Proof/Laws/Slicer.lean ====
section
/-! SUPPORT. The bits of the big-endian integer of a byte string (00_scope.md R8) and of its bit buffer (42_slicer.md
R158). -/

namespace Sys2Proof.Machine

/-- Position `p` of a bit string, counted from the left, is bit `T-1-p` of its integer (00_scope.md R8). -/
theorem intBE_testBit (bs : List Byte) (p : Nat) (hp : p < 8 * bs.length) :
    (intBE bs).testBit (8 * bs.length - 1 - p) = bitOfBytes bs p := by
  induction bs generalizing p with
  | nil => simp at hp
  | cons b bs ih =>
    simp only [intBE, List.length_cons] at *
    rw [mul_comm b.toNat, Nat.testBit_two_pow_mul_add _ (intBE_lt bs)]
    split_ifs with h
    · have := ih (p - 8) (by omega)
      rw [show 8 * (bs.length + 1) - 1 - p = 8 * bs.length - 1 - (p - 8) by omega, this]
      simp only [bitOfBytes]
      rw [show p / 8 = (p - 8) / 8 + 1 by omega, show p % 8 = (p - 8) % 8 by omega]
      rfl
    · simp only [bitOfBytes]
      rw [show p / 8 = 0 by omega, show p % 8 = p by omega,
        show 8 * (bs.length + 1) - 1 - p - 8 * bs.length = 7 - p by omega]
      rfl

/-- A LEN of at most 256 selects LEN/8 bytes (41_checksum.md R121). -/
theorem entBytes_length {s : State} (h : s.len.toNat ≤ 256) : s.entBytes.length = s.len.toNat / 8 := by
  simp [State.entBytes]; omega

/-- Reading a window of bits most significant first gives the field of the integer. -/
theorem fold_bits (x n : Nat) (f : Nat → Bool) (m : Nat) (hf : ∀ j < n, f j = x.testBit (m + n - 1 - j)) :
    (List.range n).foldl (fun v j => 2 * v + (f j).toNat) 0 = x / 2 ^ m % 2 ^ n := by
  induction n generalizing m with
  | zero => simp [Nat.mod_one]
  | succ n ih =>
    rw [List.range_succ, List.foldl_append, ih (m + 1) (fun j hj => by rw [hf j (by omega)]; congr 1; omega)]
    simp only [List.foldl_cons, List.foldl_nil]
    rw [hf n (by omega), show m + (n + 1) - 1 - n = m by omega, pow_succ 2 m, ← Nat.div_div_eq_div_mul,
      pow_succ' 2 n, Nat.mod_mul, Nat.toNat_testBit]
    ring

end Sys2Proof.Machine
end

