-- ==== Sys2Proof/Tests/Slice0.lean ====
section
/-! SUPPORT. Tests. Expected values are taken from spec/95_test_vectors.md (T1 to T12), from the encodings of
30_encoding.md, or from RFC 3629; none from the model. The `witness_` theorems give, for every obligation that has
hypotheses, states and operands that meet them together. -/

namespace Sys2Proof.Tests

open Sys2Proof.Machine

/-! ## A platform, and small states -/

/-- A table in the manner of 43_wordlist.md R177: "abandon" at 0, "about" at 3, made-up words elsewhere. -/
def demoWord (a : Nat) : List Byte :=
  if a = 0 then [0x61, 0x62, 0x61, 0x6E, 0x64, 0x6F, 0x6E]
  else if a = 3 then [0x61, 0x62, 0x6F, 0x75, 0x74]
  else [0x7A, BitVec.ofNat 8 (0x61 + a / 676), BitVec.ofNat 8 (0x61 + a / 26 % 26), BitVec.ofNat 8 (0x61 + a % 26)]

/-- The address a word of the table came from. -/
def demoAddress (w : List Byte) : Nat :=
  if w.length = 7 then 0
  else if w.length = 5 then 3
  else (w.getD 1 0).toNat * 676 + (w.getD 2 0).toNat * 26 + (w.getD 3 0).toNat - 0x61 * 703

def demoWords : List (List Byte) := (List.range 2048).map demoWord

def demo : Platform := ⟨16, 32, [⟨true, demoWords⟩]⟩

/-- The same platform with its table not loaded. -/
def demoUnloaded : Platform := ⟨16, 32, [⟨false, []⟩]⟩

theorem demo_length : demoWords.length = 2048 := by rw [demoWords, List.length_map, List.length_range]

theorem demo_addresses : demoWords.map demoAddress = List.range 2048 := by decide +kernel

theorem demo_entries : demoWords.all (entryOk 32) = true := by decide +kernel

theorem demo_nodup : demoWords.Nodup := by
  apply List.Nodup.of_map demoAddress
  rw [demo_addresses]
  exact List.nodup_range

theorem tableOk_of {ws : List (List Byte)} (h1 : ws.length = 2048) (h2 : ws.Nodup)
    (h3 : ws.all (entryOk 32) = true) : tableOk 32 ⟨true, ws⟩ = true :=
  (tableOk_iff _ _).2 ⟨h1, h2, List.all_eq_true.1 h3⟩

theorem demo_tableOk : tableOk 32 ⟨true, demoWords⟩ = true := tableOk_of demo_length demo_nodup demo_entries

theorem demo_ok : demo.ok = true := by
  rw [platform_ok_iff]
  refine ⟨by decide, by decide, ?_⟩
  intro t ht _
  rw [demo, List.mem_singleton] at ht
  rw [ht]
  exact demo_tableOk

/-- The idle block after reset. -/
def idle : State := State.afterReset demo

/-- LEN and the first entropy bytes written. -/
def withEntropy (len : Word) (bs : List Byte) : State := { idle with len := len, ent := packBytes bs }

/-- The bytes 00 01 02 … of the rows T2.21 to T2.25. -/
def counting (n : Nat) : List Byte := (List.range n).map (BitVec.ofNat 8)

/-- A state as ENCODE leaves it for the groups `gs`, with the flags of T9's second row. -/
def encoded (gs : List Nat) : State :=
  { idle with
    len := 128, csLen := 4, csValid := true, idxValid := true, nWords := 12, done := true,
    idx := Vector.ofFn fun k => BitVec.ofNat 11 (gs.getD k.val 0) }

/-- The next state of an outcome, none where it stops. -/
def after (o : Host.Outcome State Fault Refusal) : Option State :=
  match o with
  | .next t => some t
  | .fault _ | .refused _ => none

/-! ## Well-formed commands, decoding (30_encoding.md R80-R87, T6) -/

theorem test_wellFormed_refuses_lookup_65536 : Instr.wellFormed (.lookup 65536) = false := by decide
theorem test_wellFormed_refuses_rdrom_65536 : Instr.wellFormed (.rdrom 65536) = false := by decide
theorem test_assembler_refuses_lookup_65536 : assemble demo (.command (.lookup 65536)) = none := by decide

theorem test_decode_nop : decode 0b0000000000000000_000000000000_0000 = .ok .nop := by decide
theorem test_decode_clear : decode 0b0000000000000000_000000000000_0001 = .ok .clear := by decide
theorem test_decode_checksum : decode 0b0000000000000000_000000000000_0010 = .ok .checksum := by decide
theorem test_decode_extract : decode 0b0000000000000000_000000000000_0011 = .ok .extract := by decide
theorem test_decode_encode : decode 0b0000000000000000_000000000000_0100 = .ok .encode := by decide
theorem test_decode_lookup : decode 0b1111111111111111_000000000000_0101 = .ok (.lookup 65535) := by decide
theorem test_decode_rdrom : decode 0b0000011111111111_000000000000_0110 = .ok (.rdrom 2047) := by decide
theorem test_decode_illegal :
    decode 0x00010000 = .error .unexpectedArgument ∧ decode 0x00000010 = .error .reservedBits ∧
    decode 0x00008002 = .error .reservedBits ∧ decode 0x00000007 = .error .reservedOpcode ∧
    decode 0x0000000F = .error .reservedOpcode ∧ decode 0x00010004 = .error .unexpectedArgument ∧
    decode 0x00000017 = .error .reservedBits := by decide

/-! ## The commands, one perform step each -/

/-- R106, T7: NOP after an issue in the state 0xF02 leaves STATUS 0xF02. -/
theorem test_nop : (after (exec .nop { (encoded [3]).latch 0 with wordValid := true })).map State.statusWord =
    some 0x00000F02 := by decide +kernel

/-- R107, P1 line 16: CLEAR zeroes ENT and keeps LEN; STATUS is 0x802. -/
theorem test_clear : (after (exec .clear ({ encoded [3] with ent := packBytes (counting 32) }.latch 1))).map
    (fun t => (t.statusWord, t.len, t.ent.toList, t.idx[0])) =
    some (0x00000802, 128, List.replicate 8 0, 0) := by decide +kernel

/-- T2.22: 160 bits, CSLEN 5. -/
theorem test_checksum_160 : (after (exec .checksum (withEntropy 160 (counting 20)))).map
    (fun t => (t.dig.toList, t.csumWord)) =
    some ([0xe7aebf57, 0x7f60412f, 0x0312d442, 0xc70a1fa6, 0x148c090b, 0xf5bab404, 0xcaec2948, 0x2ae779e8],
      0x0000051C) := by decide +kernel

/-- T3, extra corner: ENT4 does not matter when LEN = 128 (T2.1). -/
theorem test_checksum_ignores_the_tail :
    (after (exec .checksum (withEntropy 128 (List.replicate 16 0 ++ [0xDE, 0xAD, 0xBE, 0xEF])))).map
    (fun t => (t.dig.toList, t.csumWord)) =
    some ([0x374708ff, 0xf7719dd5, 0x979ec875, 0xd56cd228, 0x6f6d3cf7, 0xec317a3b, 0x25632aab, 0x28ec37bb],
      0x00000403) := by decide +kernel

/-- T4.22, from the checksum of T2.22. -/
theorem test_extract_160 : (after (exec .extract
    { withEntropy 160 (counting 20) with csValid := true, csLen := 5, cs := 0x1C })).map
    (fun t => (t.idx.toList.map BitVec.toNat, t.nWords)) =
    some ([0, 64, 1030, 64, 643, 28, 257, 266, 88, 771, 540, 241, 8, 1096, 636] ++ List.replicate 9 0, 15) := by
  decide +kernel

/-- T7: EXTRACT with CS_VALID = 0. -/
theorem test_extract_sequence_error : (after (exec .extract (idle.latch 3))).map State.statusWord =
    some 0x00000876 := by decide +kernel

/-- T4.25, T2.25: 256 bits. -/
theorem test_encode_256 : (after (exec .encode (withEntropy 256 (counting 32)))).map
    (fun t => (t.idx.toList.map BitVec.toNat, t.csumWord, t.statusWord)) =
    some ([0, 64, 1030, 64, 643, 28, 257, 266, 88, 771, 540, 241] ++
      [8, 1096, 610, 1045, 176, 1478, 50, 417, 1422, 116, 963, 1891], 0x00000863, 0x00000B02) := by decide +kernel

/-- T1: LEN = 640, whose low 9 bits would be 128, is invalid; LEN keeps the written value. -/
theorem test_encode_invalid_length : (after (exec .encode ({ encoded [3] with len := 640 }.latch 4))).map
    (fun t => (t.statusWord, t.len, t.nWords, t.idx[0])) = some (0x00000816, 640, 0, 0) := by decide +kernel

/-- T9: LOOKUP 11 with IDX11 = 3 reads "about"; STATUS 0xF02 (T7). -/
theorem test_lookup_about : (after (exec (.lookup 11) (encoded (List.replicate 11 0 ++ [3])))).map
    (fun t => (t.word.toList, t.wLen, t.wIdx, t.statusWord)) =
    some ([0x61626F75, 0x74000000, 0, 0, 0, 0, 0, 0], 5, 3, 0x00000F02) := by decide +kernel

/-- T9: with LANG = 1 the index is still checked first. -/
theorem test_lookup_checks_the_index_first :
    (after (exec (.lookup 12) ({ encoded [3] with lang := 1 }.latch 5))).map (·.errCode) = some 4 := by decide +kernel

/-- T9: RDROM 0 reads "abandon". -/
theorem test_rdrom_abandon : (after (exec (.rdrom 0) idle)).map (fun t => (t.word.toList, t.wLen)) =
    some ([0x6162616E, 0x646F6E00, 0, 0, 0, 0, 0, 0], 7) := by decide +kernel

/-- T9: with WL_READY = 0 the address is still checked first. -/
theorem test_rdrom_checks_the_address_first :
    (after (exec (.rdrom 4096) ({ idle with lang := 1 }.latch 6))).map (·.errCode) = some 4 := by decide +kernel

/-- T6: an illegal word takes STATUS 0xF02 to 0xF66. -/
theorem test_illegal_word : (after (perform { (encoded [3]).latch 0x17 with wordValid := true })).map
    State.statusWord = some 0x00000F66 := by decide +kernel

/-! ## SHA-256, the slicer and packing -/

/-- T2a: the block and W[16..23] of 16 zero bytes. -/
theorem test_schedule :
    sha256Block (List.replicate 16 0) = List.replicate 4 0 ++ [0x80000000] ++ List.replicate 10 0 ++ [0x80] ∧
    ((messageSchedule (sha256Block (List.replicate 16 0))).drop 16).take 8 =
      [0x00000000, 0x00500000, 0x00000000, 0x11003422, 0x80000000, 0x1c910aad, 0x00205080, 0xa4040998] := by
  decide +kernel

/-- T2a: the working variables after t = 0, t = 1 and t = 63. -/
theorem test_rounds : let r := fun n => (sha256Rounds n sha256H0 (sha256Block (List.replicate 16 0))).toList
    r 1 = [0xfc08884d, 0x6a09e667, 0xbb67ae85, 0x3c6ef372, 0x98c7e2a2, 0x510e527f, 0x9b05688c, 0x1f83d9ab] ∧
    r 2 = [0x7ad96290, 0xfc08884d, 0x6a09e667, 0xbb67ae85, 0x9df1b216, 0x98c7e2a2, 0x510e527f, 0x9b05688c] ∧
    r 64 = [0xcd3d2298, 0x3c09ef50, 0x5b2fd503, 0x301cdcee, 0x1e5eea78, 0x512c11af, 0x05df5100, 0xcd0b6aa2] := by
  decide +kernel

/-- T3: two rows of the truncation table. -/
theorem test_truncation :
    [4, 5, 6, 7, 8].map (checksumBits [0x37]) = [0x3, 0x06, 0x0D, 0x1B, 0x37] ∧
    [4, 5, 6, 7, 8].map (checksumBits [0x80]) = [0x8, 0x10, 0x20, 0x40, 0x80] := by decide

/-- T5: the last two groups of 15 zero bytes and 0x7F, and of 31 zero bytes and 0x08. -/
theorem test_last_groups :
    (group (intBE (List.replicate 15 0 ++ [0x7F]) * 2 ^ 4 + 0x0) 12 11).toNat = 2032 ∧
    (group (intBE (List.replicate 31 0 ++ [0x08]) * 2 ^ 8 + 0x38) 24 22).toNat = 1 ∧
    (group (intBE (List.replicate 31 0 ++ [0x08]) * 2 ^ 8 + 0x38) 24 23).toNat = 56 := by decide +kernel

/-- T11: 32 bytes 0x41..0x60. -/
theorem test_packing : let v := packBytes ((List.range 32).map fun j => BitVec.ofNat 8 (0x41 + j))
    v[0] = 0x41424344 ∧ v[1] = 0x45464748 ∧ v[7] = 0x5D5E5F60 := by decide +kernel

/-- RFC 3629: one well-formed string of each length, an overlong form, a surrogate, a value above U+10FFFF and a cut-off
sequence. -/
theorem test_utf8 :
    isUtf8 [0x61, 0xC3, 0xA9, 0xE2, 0x82, 0xAC, 0xF0, 0x9F, 0x98, 0x80] = true ∧ isUtf8 [0xC0, 0xAF] = false ∧
    isUtf8 [0xED, 0xA0, 0x80] = false ∧ isUtf8 [0xF4, 0x90, 0x80, 0x80] = false ∧ isUtf8 [0xE2, 0x82] = false := by
  decide

/-- R171, R233: the boot check does not mark an empty table as loaded. -/
theorem test_boot_check : (Platform.checkTable 32 ⟨true, []⟩).loaded = false := by decide

/-- R171: a launch on a loaded table without entries is refused. -/
theorem test_launch_refused : launch ⟨16, 32, [⟨true, []⟩]⟩ = .refused .illFormedPlatform := by rfl

/-! ## STATUS, the bus and the sequencer -/

/-- T7: after reset, and just after an issue. -/
theorem test_status_after_reset : idle.statusWord = 0x00000800 ∧
    (State.afterReset demoUnloaded).statusWord = 0x00000000 ∧ (idle.latch 4).statusWord = 0x00000801 := by
  decide +kernel

/-- T8, steps 2 to 5: while BUSY, writes are dropped and set OVR, STATUS clears it, WIDX is read only. -/
theorem test_writes_while_busy : let s := idle.latch 4
    (s.busWrite .cmd 5).ovr = true ∧ (s.busWrite .cmd 5).pend = 4 ∧ (s.busWrite .len 160).len = 0 ∧
    ((s.busWrite .len 160).busWrite .status 8).ovr = false ∧ s.busWrite .wIdx 5 = s := by decide +kernel

/-- T10: wrong widths and a misaligned write get a bus error, ENT0 and OVR unchanged. -/
theorem test_bus_errors :
    (idle.readAt .byte 0x04).replies = [.busError] ∧ (idle.writeAt .half 0x10 5).replies = [.busError] ∧
    (idle.writeAt .half 0x10 5).ent = idle.ent ∧ (idle.writeAt .word 0x12 5).replies = [.busError] ∧
    (idle.writeAt .word 0x12 5).ovr = false := by decide +kernel

/-- T10: CMD and a reserved offset read 0; LANG keeps 8 bits; a write of ENT2 clears the two flags and keeps IDX. -/
theorem test_bus_values : let s := encoded [3]
    (s.readAt .word 0x00).replies = [.data 0] ∧ (s.readAt .word 0xE0).replies = [.data 0] ∧
    ((s.writeAt .word 0x0C 0xFFFFFF05).readAt .word 0x0C).replies = [.data 5, .ack] ∧
    (s.writeAt .word 0x18 1).csValid = false ∧ (s.writeAt .word 0x18 1).idxValid = false ∧
    (s.writeAt .word 0x18 1).idx = s.idx := by decide +kernel

/-! ## Witnesses for the hypotheses of the obligations -/

theorem witness_StepPerformsTheDecodedCommand :
    (∃ (s : State) (i : Instr), s.busy = true ∧ s.latency = 0 ∧ s.hostQ ≠ [] ∧ decode s.pend = .ok i) ∧
    ∃ (s : State) (i : Instr), s.busy = true ∧ s.latency ≠ 0 ∧ s.hostQ = [] ∧ decode s.pend = .ok i :=
  ⟨⟨{ idle.latch 4 with hostQ := [.wait] }, .encode, by decide⟩, ⟨{ idle.latch 4 with latency := 5 }, .encode, by decide⟩⟩

theorem witness_StepOnAnIllegalWord :
    (∃ (s : State) (w : Illegal), s.busy = true ∧ s.latency = 0 ∧ s.hostQ ≠ [] ∧ decode s.pend = .error w) ∧
    ∃ (s : State) (w : Illegal), s.busy = true ∧ s.latency ≠ 0 ∧ s.hostQ = [] ∧ decode s.pend = .error w :=
  ⟨⟨{ idle.latch 0x17 with hostQ := [.wait] }, .reservedBits, by decide⟩,
    ⟨{ idle.latch 7 with latency := 5 }, .reservedOpcode, by decide⟩⟩

theorem witness_StepTakesTheHostsNextMove :
    (∃ (s : State) (m : HostMove) (rest : List HostMove), s.hostQ = m :: rest ∧ s.busy = false) ∧
    (∃ (s : State) (m : HostMove) (rest : List HostMove), s.hostQ = m :: rest ∧ s.busy = true ∧ 0 < s.latency) ∧
    ∃ s : State, s.runEnded :=
  ⟨⟨{ idle with hostQ := [.wait] }, .wait, [], by decide⟩,
    ⟨{ idle.latch 4 with hostQ := [.wait], latency := 1 }, .wait, [], by decide⟩, ⟨idle, rfl, rfl⟩⟩

theorem witness_FetchedWordIsPerformedNext :
    Instr.wellFormed .nop = true ∧ Instr.wellFormed (.lookup 65535) = true ∧ Instr.wellFormed (.rdrom 0) = true := by
  decide

theorem witness_ChecksumResult :
    ∀ n ∈ [128, 256], ∃ s : State, s.len.toNat = n ∧ s.len.toNat % 32 = 0 ∧ 128 ≤ s.len.toNat ∧ s.len.toNat ≤ 256 := by
  simp only [List.mem_cons, List.not_mem_nil, or_false, forall_eq_or_imp, forall_eq]
  exact ⟨⟨withEntropy 128 [], by decide⟩, ⟨withEntropy 256 [], by decide⟩⟩

theorem witness_InvalidLengthFailsChecksumAndEncode :
    ∀ n ∈ [96, 127, 257, 288], ∃ s : State, s.len.toNat = n ∧
      ¬ (s.len.toNat % 32 = 0 ∧ 128 ≤ s.len.toNat ∧ s.len.toNat ≤ 256) := by
  simp only [List.mem_cons, List.not_mem_nil, or_false, forall_eq_or_imp, forall_eq]
  exact ⟨⟨withEntropy 96 [], by decide⟩, ⟨withEntropy 127 [], by decide⟩, ⟨withEntropy 257 [], by decide⟩,
    ⟨withEntropy 288 [], by decide⟩⟩

theorem witness_ExtractResult :
    (∃ (s : State) (n x : Nat), s.csValid = true ∧ s.csLen.toNat ≤ 8 ∧ s.len.toNat + s.csLen.toNat = 11 * n ∧ n ≤ 24 ∧
      n = 24 ∧ x = intBE ((bytesOfArray s.ent).take (s.len.toNat / 8)) * 2 ^ s.csLen.toNat + s.cs.toNat) ∧
    ∃ (s : State) (n x : Nat), s.csValid = true ∧ s.csLen.toNat ≤ 8 ∧ s.len.toNat + s.csLen.toNat = 11 * n ∧ n ≤ 24 ∧
      n = 12 ∧ x = intBE ((bytesOfArray s.ent).take (s.len.toNat / 8)) * 2 ^ s.csLen.toNat + s.cs.toNat :=
  ⟨⟨{ withEntropy 256 (counting 32) with csValid := true, csLen := 8, cs := 0x63 }, 24, _, rfl, by decide, by decide,
      by decide, rfl, rfl⟩,
    ⟨{ withEntropy 128 (counting 16) with csValid := true, csLen := 4, cs := 0x0B }, 12, _, rfl, by decide, by decide,
      by decide, rfl, rfl⟩⟩

/-- CS_VALID = 0; CSLEN = 9; T not a multiple of 11; T = 275, so 25 groups. -/
theorem witness_ExtractErrors :
    (∃ s : State, s.csValid = false) ∧ (∃ s : State, s.csValid = true ∧ ¬ s.csLen.toNat ≤ 8) ∧
    (∃ s : State, s.csValid = true ∧ s.csLen.toNat ≤ 8 ∧ (s.len.toNat + s.csLen.toNat) % 11 ≠ 0) ∧
    ∃ s : State, s.csValid = true ∧ s.csLen.toNat ≤ 8 ∧ (s.len.toNat + s.csLen.toNat) % 11 = 0 ∧
      ¬ (s.len.toNat + s.csLen.toNat) / 11 ≤ 24 :=
  ⟨⟨idle, by decide⟩, ⟨{ idle with csValid := true, csLen := 9 }, by decide⟩,
    ⟨{ idle with csValid := true, csLen := 4, len := 129 }, by decide⟩,
    ⟨{ idle with csValid := true, csLen := 8, len := 267 }, by decide⟩⟩

theorem witness_EncodeResult :
    ∃ (s : State) (e d : List Byte) (c n x : Nat),
      s.len.toNat % 32 = 0 ∧ 128 ≤ s.len.toNat ∧ s.len.toNat ≤ 256 ∧
      e = (bytesOfArray s.ent).take (s.len.toNat / 8) ∧ d = sha256 e ∧ c = s.len.toNat / 32 ∧
      n = (s.len.toNat + c) / 11 ∧ x = intBE e * 2 ^ c + (d.getD 0 0 >>> (8 - c)).toNat :=
  ⟨withEntropy 256 (counting 32), _, _, _, _, _, by decide, by decide, by decide, rfl, rfl, rfl, rfl, rfl⟩

theorem witness_EncodeEqualsChecksumThenExtract :
    ∃ s : State, s.busy = false ∧ s.len.toNat % 32 = 0 ∧ 128 ≤ s.len.toNat ∧ s.len.toNat ≤ 256 :=
  ⟨withEntropy 128 (counting 16), by decide⟩

theorem idle_wlReady : idle.wlReady = true := by decide

/-- The hypotheses of LookupResult and of LookupReadsLikeRdromAtTheIndex, at the last position of 12 and of 24. -/
theorem witness_LookupResult :
    ∀ n ∈ [12, 24], ∃ (s : State) (i : Nat), i + 1 = n ∧ i < 24 ∧ s.idxValid = true ∧ i < s.nWords.toNat ∧
      s.wlReady = true := by
  simp only [List.mem_cons, List.not_mem_nil, or_false, forall_eq_or_imp, forall_eq]
  exact ⟨⟨encoded [3], 11, by decide⟩, ⟨{ encoded [3] with nWords := 24 }, 23, by decide⟩⟩

/-- IDX_VALID = 0; i = NWORDS = 12; i = 24 with NWORDS = 31; WL_READY = 0 at the last position. -/
theorem witness_LookupErrors :
    (∃ s : State, s.idxValid = false) ∧ (∃ s : State, s.idxValid = true ∧ s.nWords.toNat ≤ 12) ∧
    (∃ s : State, s.idxValid = true ∧ 24 < s.nWords.toNat) ∧
    ∃ s : State, s.idxValid = true ∧ 11 < s.nWords.toNat ∧ 11 < 24 ∧ s.wlReady = false :=
  ⟨⟨idle, by decide⟩, ⟨encoded [3], by decide⟩, ⟨{ encoded [3] with nWords := 31 }, by decide⟩,
    ⟨{ encoded [3] with lang := 1 }, by decide⟩⟩

theorem witness_RdromResult :
    ∃ (s : State) (a : Nat) (w : List Byte), a < 2048 ∧ a = 2047 ∧ s.wlReady = true ∧
      w = s.cfg.romRead s.lang.toNat a :=
  ⟨idle, 2047, _, by decide, rfl, idle_wlReady, rfl⟩

theorem witness_RdromErrors : 2048 ≤ 2048 ∧ ∃ (s : State) (a : Nat), a = 2047 ∧ a < 2048 ∧ s.wlReady = false :=
  ⟨by decide, { idle with lang := 1 }, 2047, by decide⟩

/-- Each clause of CommandFrames: NOP; LOOKUP; RDROM; CHECKSUM, EXTRACT and ENCODE without an error. -/
theorem witness_CommandFrames :
    (∃ s t : State, exec .nop s = .next t) ∧ (∃ s t : State, exec (.lookup 0) s = .next t) ∧
    (∃ s t : State, exec (.rdrom 0) s = .next t) ∧
    (∃ s t : State, exec .checksum s = .next t ∧ t.err = false) ∧
    (∃ s t : State, exec .extract s = .next t ∧ t.err = false) ∧
    ∃ s t : State, exec .encode s = .next t ∧ t.err = false :=
  ⟨⟨idle, _, rfl⟩, ⟨idle, _, rfl⟩, ⟨idle, _, rfl⟩, ⟨withEntropy 128 [], _, rfl, by decide⟩,
    ⟨{ withEntropy 128 [] with csValid := true, csLen := 4 }, _, rfl, by decide⟩,
    ⟨withEntropy 128 [], _, rfl, by decide⟩⟩

theorem idle_inv : Inv idle := Inv.afterReset demo_ok

/-- ReachableErrors, for every command: the state after an issue from reset. -/
theorem witness_ReachableErrors : ∀ i : Instr, ∃ s t : State, Inv s ∧ s.busy = true ∧ exec i s = .next t :=
  fun i => ⟨idle.busWrite .cmd (encode i), _, idle_inv.busWrite _ _, rfl, exec_eq i _⟩

/-- A failure of each kind of command: CHECKSUM on LEN = 0, LOOKUP 0 and RDROM 2048 after reset, an illegal word. -/
theorem witness_FailureLeavesNoPartialResult :
    ∀ v ∈ [0x00000002#32, 0x00000005#32, 0x08000006#32, 0x00000017#32],
      ∃ s t : State, s.pend = v ∧ s.err = false ∧ perform s = .next t ∧ t.err = true := by
  simp only [List.mem_cons, List.not_mem_nil, or_false, forall_eq_or_imp, forall_eq]
  exact ⟨⟨idle.latch 0x00000002, _, rfl, rfl, rfl, by decide⟩, ⟨idle.latch 0x00000005, _, rfl, rfl, rfl, by decide⟩,
    ⟨idle.latch 0x08000006, _, rfl, rfl, rfl, by decide⟩, ⟨idle.latch 0x00000017, _, rfl, rfl, rfl, by decide⟩⟩

theorem witness_PerformDependsOnTheBlockAlone :
    ∃ s s' t t' : State, s ≠ s' ∧ s.block = s'.block ∧ perform s = .next t ∧ perform s' = .next t' :=
  ⟨idle.latch 4, (idle.latch 4).withModel 7 1 [.wait] [.ack], _, _, by decide +kernel, rfl, rfl, rfl⟩

/-- The empty message and one of 55 bytes; only the first has zeros between 0x80 and the length. -/
theorem witness_PaddingFillsOneBlock :
    (([] : List Byte).length ≤ 55 ∧ ([] : List Byte).length < 55 ∧ 55 < 56) ∧ (counting 55).length ≤ 55 := by decide

theorem witness_MessageScheduleRecurrence : (sha256Block (counting 16)).length = 16 := by decide

theorem witness_ChecksumIsTheLeadingBits : ∀ c ∈ [4, 8], 4 ≤ c ∧ c ≤ 8 := by decide

theorem witness_EntropyIsTheLeadingRegisters :
    (∃ s : State, validLen s.len = true ∧ s.len.toNat = 128 ∧ 15 < s.len.toNat / 8) ∧
    ∃ s : State, validLen s.len = true ∧ s.len.toNat = 256 ∧ 31 < s.len.toNat / 8 :=
  ⟨⟨withEntropy 128 (counting 16), by decide⟩, ⟨withEntropy 256 (counting 32), by decide⟩⟩

theorem witness_GroupCountOfEachLength : ∃ s : State, validLen s.len = true ∧ s.csLen.toNat = s.len.toNat / 32 :=
  ⟨{ withEntropy 256 (counting 32) with csLen := 8 }, by decide⟩

/-- The hypotheses of BitBufferEqualsTheGroups and OnlyTheLastGroupHoldsChecksum for EXTRACT, with the last but one and the
last of 24 groups in range; those for ENCODE are its first alone. -/
theorem witness_slicer :
    ∃ (s : State) (c n : Nat), validLen s.len = true ∧ c = s.len.toNat / 32 ∧ n = (s.len.toNat + c) / 11 ∧
      s.csValid = true ∧ s.csLen.toNat = c ∧ s.cs.toNat < 2 ^ c ∧ 22 < n - 1 ∧ 23 = n - 1 :=
  ⟨{ withEntropy 256 (counting 32) with csLen := 8, cs := 0xFF, csValid := true }, 8, 24, by decide⟩

theorem witness_LoadedWordIsTheEntry :
    ∃ (s : State) (a : BitVec 11) (w : List Byte), w = s.cfg.romRead s.lang.toNat a.toNat ∧ w.length ≤ 32 ∧
      w.length = 32 :=
  ⟨State.afterReset ⟨16, 32, [⟨true, [counting 32]⟩]⟩, 0, counting 32, by decide +kernel⟩

theorem witness_ReadyTableEntries :
    ∃ (s : State) (a b : Nat), s.cfg.ok = true ∧ s.wlReady = true ∧ a < 2048 ∧ b < 2048 ∧ a ≠ b ∧ a = 2047 ∧ b = 0 :=
  ⟨idle, 2047, 0, demo_ok, idle_wlReady, by decide⟩

theorem witness_BootCheckKeepsEveryWellFormedPlatform : demo.ok = true := demo_ok

theorem witness_RegistersAndOffsetsCorrespond :
    Reg.ofOffset 0x00 = some .cmd ∧ Reg.ofOffset 0xFC = some (.reserved 7) ∧ 0xFC % 4 = 0 ∧ 0xFC < 256 := by decide

theorem witness_RegisterReads : ∃ s : State, s.busy = false := ⟨idle, rfl⟩

/-- BusyReads, each write set in flight: CLEAR, ENCODE, LOOKUP, and NOP and an illegal word, whose write set is empty. -/
theorem witness_BusyReads :
    ∀ v ∈ [0x00000001#32, 0x00000004#32, 0x00000005#32, 0x00000000#32, 0x00000017#32],
      ∃ s : State, s.busy = true ∧ s.pend = v := by
  intro v _
  exact ⟨idle.latch v, rfl, rfl⟩

/-- RegisterWrites: both values of BUSY, and a register that no clause but the last names. -/
theorem witness_RegisterWrites :
    idle.busy = false ∧ (idle.latch 4).busy = true ∧
    ∃ r : Reg, r ≠ .cmd ∧ r ≠ .status ∧ r ≠ .len ∧ r ≠ .lang ∧ ∀ k, r ≠ .ent k :=
  ⟨rfl, rfl, .reserved 7, by decide⟩

/-- WrongAccessGetsABusError: a narrow access at the first offset, a misaligned one at the last. -/
theorem witness_WrongAccessGetsABusError :
    (∃ (s : State) (w : Width) (addr : Nat), s.cfg.regBase ≤ addr ∧ addr < s.cfg.regBase + 256 ∧ w ≠ .word ∧
      addr = s.cfg.regBase) ∧
    ∃ (s : State) (addr : Nat), s.cfg.regBase ≤ addr ∧ addr < s.cfg.regBase + 256 ∧
      (addr - s.cfg.regBase) % 4 ≠ 0 ∧ addr = s.cfg.regBase + 255 :=
  ⟨⟨idle, .byte, 0x1000, by decide⟩, ⟨idle, 0x10FF, by decide⟩⟩

theorem witness_ExtractAfterAnInputWriteFails :
    (∃ (s : State) (r : Reg), s.busy = false ∧ r = .len) ∧ ∃ (s : State) (r : Reg), s.busy = false ∧ r = .ent 7 :=
  ⟨⟨idle, .len, rfl, rfl⟩, ⟨idle, .ent 7, rfl, rfl⟩⟩

/-- ReadsHaveNoSideEffect: the third clause idle, and BUSY with ENT outside the write set of ENCODE. -/
theorem witness_ReadsHaveNoSideEffect :
    (∃ s t : State, hostMove (.read .word 0x1004) s = .next t) ∧ (∃ s t : State, hostMove .wait s = .next t) ∧
    (∃ s : State, s.busy = false) ∧
    ∃ (s : State) (r : Reg), s.busy = true ∧ r = .ent 7 ∧ inWriteSet (decode s.pend) r = false :=
  ⟨⟨idle, _, rfl⟩, ⟨idle, _, rfl⟩, ⟨idle, rfl⟩, ⟨idle.latch 4, .ent 7, by decide⟩⟩

/-- ResetLoadsZeroEverywhere: a reset while a command is in flight, and the state a run starts from. -/
theorem witness_ResetLoadsZeroEverywhere :
    (∃ s t : State, s.busy = true ∧ hostMove .reset s = .next t) ∧ ∃ t : State, t = State.reset :=
  ⟨⟨idle.latch 4, _, rfl, rfl⟩, ⟨_, rfl⟩⟩

theorem witness_StatusAfterReset :
    (∃ p : Platform, p.ok = true ∧ p.wlLoaded 0 = true) ∧ ∃ p : Platform, p.ok = true ∧ p.wlLoaded 0 = false :=
  ⟨⟨demo, demo_ok, by decide⟩, ⟨demoUnloaded, by decide⟩⟩

/-- EveryStepKeepsTheInvariant: a perform step, and a host move. -/
theorem witness_EveryStepKeepsTheInvariant :
    (∃ s t : State, Inv s ∧ s.busy = true ∧ step s = .next t) ∧
    ∃ s t : State, Inv s ∧ s.hostQ ≠ [] ∧ step s = .next t :=
  ⟨⟨(idle.busWrite .cmd 4).withModel 0 0 [] [], _, (idle_inv.busWrite _ _).congr rfl, rfl, rfl⟩,
    ⟨idle.withModel 0 0 [.wait] [], _, idle_inv.congr rfl, by decide, rfl⟩⟩

theorem witness_ConfigurationNeverChanges : ∃ s t : State, step s = .next t := ⟨idle, _, rfl⟩

/-- StepStopsOnlyOutsideTheWindow: one address below the window and one above it. -/
theorem witness_StepStopsOnlyOutsideTheWindow :
    ∀ addr ∈ [0x0FFF, 0x1100], ∃ s : State, s.busy = false ∧ s.hostQ = [.read .word addr] ∧
      ¬ (s.cfg.regBase ≤ addr ∧ addr < s.cfg.regBase + 256) := by
  simp only [List.mem_cons, List.not_mem_nil, or_false, forall_eq_or_imp, forall_eq]
  exact ⟨⟨{ idle with hostQ := [.read .word 0x0FFF] }, by decide⟩, ⟨{ idle with hostQ := [.read .word 0x1100] }, by decide⟩⟩

/-- OverrunFlagSources: set by a dropped write, cleared by a STATUS write, cleared by reset. -/
theorem witness_OverrunFlagSources :
    (∃ s t : State, step s = .next t ∧ s.ovr = false ∧ t.ovr = true) ∧
    (∃ s t : State, step s = .next t ∧ s.ovr = true ∧ t.ovr = false ∧ s.busy = true) ∧
    ∃ s t : State, step s = .next t ∧ s.ovr = true ∧ t.ovr = false ∧ t.busy = false :=
  ⟨⟨(idle.latch 4).withModel 1 0 [.write .word 0x1008 160] [], _, rfl, rfl, by decide⟩,
    ⟨((idle.latch 4).dropWrite).withModel 1 0 [.write .word 0x1004 8] [], _, rfl, rfl, by decide, rfl⟩,
    ⟨((idle.latch 4).dropWrite).withModel 1 0 [.reset] [], _, rfl, rfl, by decide, by decide⟩⟩

theorem witness_CommandInFlightIsUndisturbed :
    ∃ s t : State, step s = .next t ∧ s.busy = true ∧ t.busy = true ∧ s.hostQ ≠ [] :=
  ⟨(idle.latch 4).withModel 1 0 [.write .word 0x1008 160] [], _, rfl, rfl, by decide, by decide⟩

theorem witness_AssemblerExpansions : 0 < 65536 ∧ 65535 < 65536 ∧ 65536 ≤ 65536 := by decide

theorem witness_CommandCompletesAndWaitReturns :
    ∃ (s : State) (v : Word) (rest : List HostMove), s.busy = false ∧
      s.hostQ = .write .word (s.cfg.regBase + 0x00) v :: .wait :: rest :=
  ⟨{ idle with hostQ := [.write .word 0x1000 4, .wait] }, 4, [], by decide⟩

/-- GenerateMnemonicIsCorrect at its smallest and its largest strength. -/
theorem witness_GenerateMnemonicIsCorrect :
    ∀ m ∈ [128, 256], ∃ (s : State) (b : Word) (source : Nat → Option (List Byte)) (e : List Byte) (c n x : Nat)
        (ws : List (List Byte)),
      b.toNat = m ∧ s.busy = false ∧ s.cfg.ok = true ∧ s.wlReady = true ∧ validLen b = true ∧
      source (b.toNat / 8) = some e ∧ e.length = b.toNat / 8 ∧ c = b.toNat / 32 ∧ n = (b.toNat + c) / 11 ∧
      x = intBE e * 2 ^ c + ((sha256 e).getD 0 0 >>> (8 - c)).toNat ∧
      ws = (List.range n).map (fun k => s.cfg.romRead s.lang.toNat (x / 2 ^ (11 * (n - 1 - k)) % 2048)) := by
  simp only [List.mem_cons, List.not_mem_nil, or_false, forall_eq_or_imp, forall_eq]
  exact ⟨⟨idle, 128, fun n => some (counting n), counting 16, _, _, _, _, by decide, rfl, demo_ok, idle_wlReady,
      by decide, rfl, by decide, rfl, rfl, rfl, rfl⟩,
    ⟨idle, 256, fun n => some (counting n), counting 32, _, _, _, _, by decide, rfl, demo_ok, idle_wlReady,
      by decide, rfl, by decide, rfl, rfl, rfl, rfl⟩⟩

/-- Each clause of GenerateMnemonicReportsErrors: a host that checks first, one that does not, at 96 and at 288 bits, a valid
strength with no ready table, and a source that delivers nothing, or a byte too few. -/
theorem witness_GenerateMnemonicReportsErrors :
    (∃ (check : Bool) (s : State) (b : Word), s.busy = false ∧ check = true ∧ validLen b = false) ∧
    (∀ m ∈ [96, 288], ∃ (check : Bool) (s : State) (b : Word) (source : Nat → Option (List Byte)) (e : List Byte),
      b.toNat = m ∧ s.busy = false ∧ check = false ∧ validLen b = false ∧ source (b.toNat / 8) = some e ∧
      e.length = b.toNat / 8) ∧
    (∀ m ∈ [128, 256], ∃ (s : State) (b : Word) (source : Nat → Option (List Byte)) (e : List Byte),
      b.toNat = m ∧ s.busy = false ∧ validLen b = true ∧ s.wlReady = false ∧ source (b.toNat / 8) = some e ∧
      e.length = b.toNat / 8) ∧
    (∃ (check : Bool) (s : State) (b : Word) (source : Nat → Option (List Byte)), s.busy = false ∧ check = false ∧
      validLen b = false ∧ source (b.toNat / 8) = none) ∧
    ∃ (check : Bool) (s : State) (b : Word) (source : Nat → Option (List Byte)) (e : List Byte), s.busy = false ∧
      check = true ∧ validLen b = true ∧ source (b.toNat / 8) = some e ∧ e.length ≠ b.toNat / 8 := by
  refine ⟨⟨true, idle, 96, rfl, rfl, by decide⟩, ?_, ?_, ⟨false, idle, 96, fun _ => none, rfl, rfl, by decide, rfl⟩,
    ⟨true, idle, 128, fun n => some (counting (n - 1)), counting 15, rfl, rfl, by decide, rfl, by decide⟩⟩
  · simp only [List.mem_cons, List.not_mem_nil, or_false, forall_eq_or_imp, forall_eq]
    exact ⟨⟨false, idle, 96, fun n => some (counting n), counting 12, by decide, rfl, rfl, by decide, rfl, by decide⟩,
      ⟨false, idle, 288, fun n => some (counting n), counting 36, by decide, rfl, rfl, by decide, rfl, by decide⟩⟩
  · simp only [List.mem_cons, List.not_mem_nil, or_false, forall_eq_or_imp, forall_eq]
    exact ⟨⟨{ idle with lang := 1 }, 128, fun n => some (counting n), counting 16, by decide, rfl, by decide, by decide,
        rfl, by decide⟩,
      ⟨{ idle with lang := 1 }, 256, fun n => some (counting n), counting 32, by decide, rfl, by decide, by decide,
        rfl, by decide⟩⟩

/-- LaunchRefusesIllFormedPlatforms: a loaded table without entries, and the platform of the tests with a run of its
host. -/
theorem witness_LaunchRefusesIllFormedPlatforms :
    (∃ p : Platform, p.ok = false) ∧
    ∃ (p : Platform) (s t : State) (q : List HostMove) (n : Nat), p.ok = true ∧ launch p = .next s ∧ q ≠ [] ∧ n = 1 ∧
      RunsTo n { s with hostQ := q } t :=
  ⟨⟨⟨16, 32, [⟨true, []⟩]⟩, by decide⟩,
    ⟨demo, idle, _, [.wait], 1, demo_ok, by rw [launch, demo_ok]; rfl, by decide, rfl, rfl⟩⟩

end Sys2Proof.Tests
end

/-! ## Every run from a launch meets the invariant

What one perform step and one host move do to `Inv`, then a step, then a run. -/

namespace Sys2Proof.Machine

/-- What a command's body may give on a state of a run: a state that meets the invariant, or an error that the block
produces (60_exceptions.md R212). -/
def SoundResult : ExecResult → Prop
  | .ok t => Inv t
  | .error e => e ≠ .malformedBitLength ∧ e ≠ .randomSourceFailure

@[simp] theorem soundResult_ok (t : State) : SoundResult (.ok t) ↔ Inv t := Iff.rfl

@[simp] theorem soundResult_error (e : ErrCode) :
    SoundResult (.error e) ↔ e ≠ .malformedBitLength ∧ e ≠ .randomSourceFailure := Iff.rfl

/-- The end of a perform step keeps the invariant when its `Fail` does and its body's result is sound (40_sequencer.md
R102). -/
theorem SoundResult.finish {s : State} {fail : State → State} {r : ExecResult} (hr : SoundResult r)
    (hf : Inv (fail s)) : Inv (s.finish fail r) := by
  cases r with
  | ok t => exact Inv.complete hr
  | error e => exact hf.raise e hr.1 hr.2

/-- A raise ends the sequence; otherwise the second part runs from a state that meets the invariant. -/
theorem SoundResult.bind {r : ExecResult} {f : State → ExecResult} (hr : SoundResult r)
    (hf : ∀ t, Inv t → SoundResult (f t)) : SoundResult (r.bind f) := by
  cases r with
  | ok t => exact hf t hr
  | error e => exact hr

/-- `Fail` of every command keeps the invariant (60_exceptions.md R214). -/
theorem Inv.failOf {s : State} (hi : Inv s) (i : Instr) : Inv (failOf i s) := by
  cases i with
  | nop | clear => exact hi
  | checksum | extract | encode => exact hi.clearDerived
  | lookup | rdrom => exact hi.clearWord

/-- While neither flag certifies the entropy, ENT may hold anything. -/
theorem Inv.setEnt {s : State} (hi : Inv s) (hc : s.csValid = false) (hx : s.idxValid = false) (e : Vector Word 8) :
    Inv { s with ent := e } := by
  obtain ⟨hcfg, hbusy, herr, hcode, hcs, hn, hidx, hwl, hw, _, _, hword⟩ := hi
  refine ⟨hcfg, hbusy, herr, hcode, hcs, hn, hidx, hwl, hw, by simp [hc], by simp [hx], fun h => ?_⟩
  obtain ⟨hready, hlen, hbytes⟩ := hword h
  exact ⟨hready, hlen, hbytes⟩

/-- CLEAR first gives up the flags that certify ENT, so it may clear ENT (40_sequencer.md R107). -/
theorem clearBody_sound {s : State} (hi : Inv s) : SoundResult (clearBody s) :=
  (hi.clearDerived.setEnt rfl rfl _).clearWord

theorem checksumBody_sound {s : State} (hi : Inv s) : SoundResult (checksumBody s) := by
  cases hv : validLen s.len with
  | false => simp [checksumBody_invalid hv]
  | true => simpa [checksumBody_valid hv] using hi.writeChecksum hv

/-- EXTRACT raises no MalformedBitLength: CS_VALID certifies a valid LEN with its checksum length, and for those the
checks of 42_slicer.md R151 and R152 pass. -/
theorem extractBody_sound {s : State} (hi : Inv s) : SoundResult (extractBody s) := by
  rcases extractBody_cases s with ⟨_, h⟩ | ⟨hv, _, _, _, h⟩ | ⟨hv, hbad, _⟩
  · simp [h]
  · simpa [h] using hi.writeIndices hv
  · obtain ⟨hlen, _, hcl, _⟩ := hi.cs_certified hv
    obtain ⟨h8, h11, _, h24⟩ := extendedWidth_of_validLen hlen hcl
    exact absurd ⟨h8, h11, h24⟩ hbad

/-- ENCODE is sound because its two parts are (42_slicer.md R155). -/
theorem encodeBody_sound {s : State} (hi : Inv s) : SoundResult (encodeBody s) :=
  (checksumBody_sound hi).bind fun _ => extractBody_sound

theorem lookupBody_sound (i : Nat) {s : State} (hi : Inv s) : SoundResult (lookupBody i s) := by
  rcases lookupBody_cases i s with ⟨_, h⟩ | ⟨_, _, h⟩ | ⟨_, _, _, h⟩ | ⟨_, hr, _, h⟩
  · simp [h]
  · simp [h]
  · simp [h]
  · simpa [h] using hi.loadWord hr _

theorem rdromBody_sound (a : Nat) {s : State} (hi : Inv s) : SoundResult (rdromBody a s) := by
  rcases rdromBody_cases a s with ⟨_, h⟩ | ⟨_, _, h⟩ | ⟨_, hr, h⟩
  · simp [h]
  · simp [h]
  · simpa [h] using hi.loadWord hr _

theorem bodyOf_sound (i : Instr) {s : State} (hi : Inv s) : SoundResult (bodyOf i s) := by
  cases i with
  | nop => exact hi
  | clear => exact clearBody_sound hi
  | checksum => exact checksumBody_sound hi
  | extract => exact extractBody_sound hi
  | encode => exact encodeBody_sound hi
  | lookup i => exact lookupBody_sound i hi
  | rdrom a => exact rdromBody_sound a hi

/-- A perform step, of a command or of an illegal word, keeps the invariant (40_sequencer.md R102, R103). -/
theorem Inv.perform {s t : State} (hi : Inv s) (h : perform s = .next t) : Inv t := by
  rcases perform_cases h with ⟨i, _, rfl⟩ | ⟨_, _, rfl⟩
  · exact (bodyOf_sound i hi).finish (hi.failOf i)
  · exact Inv.raise (f := noFail) hi _ (by simp) (by simp)

/-- A move of the host keeps the invariant (44_host_encoder.md R198). -/
theorem Inv.hostMove {m : HostMove} {s t : State} (hi : Inv s) (h : hostMove m s = .next t) : Inv t := by
  rcases hostMove_cases h with ⟨_, _, rfl⟩ | ⟨r, v, _, rfl⟩ | rfl | rfl
  · exact hi.congr rfl
  · exact (hi.busWrite r v).congr rfl
  · exact hi.congr rfl
  · exact (Inv.afterReset hi.cfg_ok).congr rfl

/-- A step keeps the invariant (20_memory.md R70). -/
theorem Inv.step {s t : State} (hi : Inv s) (h : step s = .next t) : Inv t := by
  rcases step_cases h with ⟨_, hp⟩ | ⟨_, _, rfl⟩ | ⟨_, rest, _, hm⟩
  · exact hi.perform hp
  · exact hi
  · exact Inv.hostMove (s := { s with hostQ := rest, latency := s.latency - 1 }) (hi.congr rfl) hm

@[simp] theorem runsTo_zero {s t : State} : RunsTo 0 s t ↔ s = t := ⟨Host.Outcome.next.inj, congrArg _⟩

/-- A run of one step more is a step and then the run from where it leads. -/
theorem runsTo_succ {n : Nat} {s t : State} : RunsTo (n + 1) s t ↔ ∃ u, step s = .next u ∧ RunsTo n u t := by
  simp only [RunsTo, Host.Core.run, Sys2Proof.core]
  cases step s <;> simp

/-- What every step keeps holds at the end of a run. -/
theorem Inv.runsTo {n : Nat} {s t : State} (hi : Inv s) (h : RunsTo n s t) : Inv t := by
  induction n generalizing s with
  | zero => exact runsTo_zero.1 h ▸ hi
  | succ n ih =>
    obtain ⟨u, hu, ht⟩ := runsTo_succ.1 h
    exact ih (hi.step hu) ht

/-! ## The launch (43_wordlist.md R171) -/

theorem launch_of_ok {p : Platform} (hp : p.ok = true) : launch p = .next (State.afterReset p) := by simp [launch, hp]

theorem launch_of_not_ok {p : Platform} (hp : p.ok = false) : launch p = .refused .illFormedPlatform := by
  simp [launch, hp]

/-- Only a well-formed platform is launched, and it starts in the state after reset. -/
theorem ok_and_afterReset_of_launch {p : Platform} {s : State} (h : launch p = .next s) :
    p.ok = true ∧ s = State.afterReset p := by
  rcases launch_cases p with ⟨hp, hl⟩ | ⟨_, hl⟩
  · exact ⟨hp, by simpa [hl] using h.symm⟩
  · simp [hl] at h

/-- The ranges of 00_scope.md R6 and the table checks of 43_wordlist.md R171, spelled out. -/
theorem platform_ok_iff_ranges_and_tables (p : Platform) :
    p.ok = true ↔ 1 ≤ p.nLang ∧ p.nLang ≤ 256 ∧ 1 ≤ p.wordMax ∧ p.wordMax ≤ 32 ∧
      ∀ t ∈ p.tables, t.loaded = true → t.words.length = 2048 ∧ t.words.Nodup ∧
        ∀ w ∈ t.words, 1 ≤ w.length ∧ w.length ≤ p.wordMax ∧ 0x20#8 ∉ w ∧ isUtf8 w = true := by
  simp only [platform_ok_iff, tableOk_iff, entryOk_iff, and_assoc]

/-- Every run from a launch meets the invariant, whatever the host's program. -/
theorem inv_of_launch_runsTo {p : Platform} {s t : State} {q : List HostMove} {n : Nat} (hl : launch p = .next s)
    (hr : RunsTo n { s with hostQ := q } t) : Inv t := by
  obtain ⟨hp, rfl⟩ := ok_and_afterReset_of_launch hl
  have hstart : Inv { State.afterReset p with hostQ := q } := (Inv.afterReset hp).congr rfl
  exact hstart.runsTo hr

/-- Settles O60: `launch` decides the checks of R6 and R171, and the invariant holds at reset and every step keeps
it. -/
theorem launchRefusesIllFormedPlatforms : Obligations.LaunchRefusesIllFormedPlatforms :=
  ⟨platform_ok_iff_ranges_and_tables, fun _ => launch_of_not_ok, fun _ => launch_of_ok, launch_of_ok (checked_ok _),
    fun _ _ _ _ _ => inv_of_launch_runsTo⟩

end Sys2Proof.Machine

/-! ## Every step keeps the invariant -/

namespace Sys2Proof.Machine

/-- Settles O51: the perform step of the engine keeps the invariant, and so does every move of the host. -/
theorem everyStepKeepsTheInvariant : Obligations.EveryStepKeepsTheInvariant := fun _ _ => Inv.step

/-! ## What each command changes (10_state.md R43, 60_exceptions.md R214)

A command ends in one of two ways, and each way changes only what is named: the writes of its body, or what its `Fail`
clears. -/

/-- The two ends of a command: the state its body left, completed, or the error it raised, taken (40_sequencer.md
R102). -/
theorem exec_cases {i : Instr} {s t : State} (h : exec i s = .next t) :
    (∃ u, bodyOf i s = .ok u ∧ t = u.complete) ∨ (∃ e, bodyOf i s = .error e ∧ t = s.raiseError (failOf i) e) := by
  rw [exec_eq, Host.Outcome.next.injEq] at h
  cases hr : bodyOf i s with
  | ok u => exact .inl ⟨u, rfl, by simpa [hr] using h.symm⟩
  | error e => exact .inr ⟨e, rfl, by simpa [hr] using h.symm⟩

/-- `Writes s i u`: from `s`, the body of command `i` has made its writes and left `u`. The checksum length, the number
of groups and the address that it wrote are left open. -/
inductive Writes (s : State) : Instr → State → Prop
  | nop : Writes s .nop s
  | clear : Writes s .clear { s with ent := Vector.replicate 8 0 }.clearDerived.clearWord
  | checksum (c : Nat) : Writes s .checksum (s.writeChecksum c)
  | extract (n : Nat) : Writes s .extract (s.writeIndices n)
  | encode (c n : Nat) : Writes s .encode ((s.writeChecksum c).writeIndices n)
  | lookup (i : Nat) (a : BitVec 11) : Writes s (.lookup i) (s.loadWord a)
  | rdrom (k : Nat) (a : BitVec 11) : Writes s (.rdrom k) (s.loadWord a)

/-- A body that succeeds has made the writes of its command. -/
theorem writes_of_bodyOf_ok {i : Instr} {s u : State} (h : bodyOf i s = .ok u) : Writes s i u := by
  cases i with
  | nop => exact Except.ok.inj h ▸ .nop
  | clear => exact Except.ok.inj h ▸ .clear
  | checksum =>
    cases hv : validLen s.len with
    | false => simp [bodyOf, checksumBody_invalid hv] at h
    | true => exact Except.ok.inj ((checksumBody_valid hv).symm.trans h) ▸ .checksum _
  | extract =>
    rcases extractBody_cases s with ⟨_, hr⟩ | ⟨_, _, _, _, hr⟩ | ⟨_, _, hr⟩
    · simp [bodyOf, hr] at h
    · exact Except.ok.inj (hr.symm.trans h) ▸ .extract _
    · simp [bodyOf, hr] at h
  | encode =>
    cases hv : validLen s.len with
    | false => simp [bodyOf, encodeBody_invalid hv] at h
    | true => exact Except.ok.inj ((encodeBody_valid hv).symm.trans h) ▸ .encode _ _
  | lookup i =>
    rcases lookupBody_cases i s with ⟨_, hr⟩ | ⟨_, _, hr⟩ | ⟨_, _, _, hr⟩ | ⟨_, _, _, hr⟩
    · simp [bodyOf, hr] at h
    · simp [bodyOf, hr] at h
    · simp [bodyOf, hr] at h
    · exact Except.ok.inj (hr.symm.trans h) ▸ .lookup i _
  | rdrom a =>
    rcases rdromBody_cases a s with ⟨_, hr⟩ | ⟨_, _, hr⟩ | ⟨_, _, hr⟩
    · simp [bodyOf, hr] at h
    · simp [bodyOf, hr] at h
    · exact Except.ok.inj (hr.symm.trans h) ▸ .rdrom a _

/-- Settles O23: after a success only the writes of the body show, after an error only what `Fail` clears. -/
theorem commandFrames : Obligations.CommandFrames := by
  intro i s t h
  rcases exec_cases h with ⟨u, hu, rfl⟩ | ⟨e, _, rfl⟩
  · cases writes_of_bodyOf_ok hu <;> simp
  · cases i <;> simp [failOf]

/-! ## STATUS bit by bit (10_state.md R23) -/

theorem flagBit_getLsbD (b : Bool) (j : Nat) : (flagBit b).getLsbD j = (decide (j = 0) && b) := by
  cases b <;> simp [flagBit, BitVec.getLsbD_one]

/-- A flag shifted left by `n` shows at bit `n` and at no other. -/
theorem flagBit_shiftLeft_getLsbD (b : Bool) (n j : Nat) (hn : n < 32) :
    (flagBit b <<< n).getLsbD j = (decide (j = n) && b) := by
  rw [BitVec.getLsbD_shiftLeft, flagBit_getLsbD]
  grind

/-- ERRCODE in its place shows from bit 4 on. -/
theorem errCode_shiftLeft_getLsbD (e : BitVec 4) (j : Nat) :
    (e.setWidth 32 <<< 4).getLsbD j = (decide (4 ≤ j) && e.getLsbD (j - 4)) := by
  rw [BitVec.getLsbD_shiftLeft, BitVec.getLsbD_setWidth]
  by_cases h : j < 8
  · grind
  · simp [BitVec.getLsbD_of_ge e (j - 4) (by omega)]

/-- Each bit of STATUS is the field that R23 places there. -/
theorem statusWord_getLsbD (s : State) (j : Nat) : s.statusWord.getLsbD j =
    (decide (j = 11) && s.wlReady || decide (j = 10) && s.wordValid || decide (j = 9) && s.idxValid ||
      decide (j = 8) && s.csValid || decide (4 ≤ j) && s.errCode.getLsbD (j - 4) || decide (j = 3) && s.ovr ||
      decide (j = 2) && s.err || decide (j = 1) && s.done || decide (j = 0) && s.busy) := by
  simp only [State.statusWord, BitVec.getLsbD_or, errCode_shiftLeft_getLsbD, flagBit_shiftLeft_getLsbD,
    flagBit_getLsbD, Nat.reduceLT]

theorem statusWord_extract_errCode (s : State) : s.statusWord.extractLsb' 4 4 = s.errCode := by
  ext j hj
  rw [BitVec.getElem_extractLsb', statusWord_getLsbD, Nat.add_sub_cancel_left, BitVec.getLsbD_eq_getElem hj]
  grind

/-- Above bit 11 lies no flag, and ERRCODE is only 4 bits wide. -/
theorem statusWord_extract_reserved (s : State) : s.statusWord.extractLsb' 12 20 = 0 := by
  ext j hj
  rw [BitVec.getElem_extractLsb', statusWord_getLsbD, BitVec.getLsbD_of_ge s.errCode (12 + j - 4) (by omega)]
  grind

/-- Settles O45, from the place of every field in STATUS. -/
theorem statusFields : Obligations.StatusFields := by
  intro s
  simp only [statusWord_getLsbD, statusWord_extract_errCode, statusWord_extract_reserved]
  simp [State.wlReady]

/-! ## An issued command is performed (30_encoding.md R85, 40_sequencer.md R102) -/

/-- The fields of every command's word. -/
theorem encode_fields : (i : Instr) → Laws.Encoding.Statement i
  | .nop => Laws.Encoding.nop
  | .clear => Laws.Encoding.clear
  | .checksum => Laws.Encoding.checksum
  | .extract => Laws.Encoding.extract
  | .encode => Laws.Encoding.encode
  | .lookup i => Laws.Encoding.lookup i
  | .rdrom a => Laws.Encoding.rdrom a

theorem decode_encode {i : Instr} (hi : i.wellFormed = true) : decode (encode i) = .ok i := by
  obtain ⟨hrsv, hop, harg⟩ := encode_fields i
  exact (decode_ok_iff _ _).2 ⟨hrsv, hop, harg hi⟩

theorem step_of_engineTurn {s : State} (h : s.engineTurn = true) : step s = perform s := if_pos h

/-- A command word issued with latency 0 is performed by the next step. -/
theorem step_issueNow {s : State} {v : Word} {i : Instr} (h : decode v = .ok i) :
    step (s.issueNow v) = exec i (s.issueNow v) := by
  have hturn : (s.issueNow v).engineTurn = true := by simp [State.engineTurn]
  rw [step_of_engineTurn hturn, perform, State.issueNow_pend, h]

/-- The low 32 bits of a word's number, as a word. -/
theorem ofNat_toNat_mod (w : Word) : BitVec.ofNat 32 (w.toNat % 2 ^ 32) = w := by
  rw [Nat.mod_eq_of_lt w.isLt, BitVec.ofNat_toNat, BitVec.setWidth_eq]

theorem withFetchWord_toNat (s : State) (w : Word) : s.withFetchWord 32 w.toNat = s.issueNow w := by
  rw [State.withFetchWord, ofNat_toNat_mod]

theorem decodeTableWord_toNat (w : Word) : decodeTableWord 32 w.toNat = (decode w).toOption := by
  rw [decodeTableWord, ofNat_toNat_mod]

/-- Settles O8: the word decodes to its command, and the issue leaves the engine its turn. -/
theorem fetchedWordIsPerformedNext : Obligations.FetchedWordIsPerformedNext := by
  intro s i hi
  rw [decodeTableWord_toNat, withFetchWord_toNat, decode_encode hi]
  exact ⟨rfl, rfl, step_issueNow (decode_encode hi)⟩

/-! ## EXTRACT after a write of an input (70_reset_and_hazards.md R238) -/

theorem command_extract_of_not_csValid {s : State} (hb : s.busy = false) (hc : s.csValid = false) :
    s.command (encode .extract) =
      .next ((s.issue (encode .extract)).raiseError State.clearDerived .sequenceError) := by
  have hbody : bodyOf .extract (s.issue (encode .extract)) = .error .sequenceError := by
    simp [bodyOf, extractBody, hc]
  rw [command_eq hb (decode_encode (i := .extract) rfl), hbody]
  rfl

/-- An accepted write of LEN or of an ENTk leaves an idle block without a valid checksum (10_state.md R40). -/
theorem busWrite_input_idle_not_csValid {s : State} {r : Reg} (v : Word) (hb : s.busy = false)
    (hr : r = .len ∨ ∃ k, r = .ent k) : (s.busWrite r v).busy = false ∧ (s.busWrite r v).csValid = false := by
  rcases hr with rfl | ⟨k, rfl⟩ <;> simp [State.busWrite, hb]

/-- Settles O47: the write clears CS_VALID, and EXTRACT checks CS_VALID before it slices. -/
theorem extractAfterAnInputWriteFails : Obligations.ExtractAfterAnInputWriteFails := by
  intro s r v hb hr
  obtain ⟨hidle, hcs⟩ := busWrite_input_idle_not_csValid v hb hr
  exact ⟨hcs, _, command_extract_of_not_csValid hidle hcs, rfl, rfl, rfl, rfl, rfl, rfl⟩

/-! ## The register an access reaches (10_state.md section 2, 20_memory.md R62) -/

theorem offset_of_ofNumber {n : Nat} {r : Reg} (h : Reg.ofNumber n = some r) : r.offset = 4 * n := by
  revert h
  fun_cases Reg.ofNumber n <;> rintro ⟨⟩ <;> simp only [Reg.offset] <;> omega

theorem offset_of_ofOffset {off : Nat} {r : Reg} (h : Reg.ofOffset off = some r) : r.offset = off := by
  unfold Reg.ofOffset at h
  split_ifs at h with haligned
  rw [offset_of_ofNumber h]
  omega

/-- An access that reaches a register is 32 bits wide and at that register's offset. -/
theorem accessReg_some {w : Width} {off : Nat} {r : Reg} (h : accessReg w off = some r) :
    w = .word ∧ r.offset = off := by
  cases w with
  | word => exact ⟨rfl, offset_of_ofOffset h⟩
  | half | byte => simp [accessReg] at h

theorem windowOffset_some {p : Platform} {addr off : Nat} (h : windowOffset p addr = some off) :
    addr = p.regBase + off := by
  unfold windowOffset at h
  split_ifs at h with hwindow
  cases h
  omega

/-- A host write that does not stop gets a bus error, or it writes the register at its address. -/
theorem hostMove_write_cases {w : Width} {addr : Nat} {v : Word} {s t : State}
    (h : hostMove (.write w addr v) s = .next t) :
    t = s.reply .busError ∨
    ∃ r, w = .word ∧ addr = s.cfg.regBase + r.offset ∧ t = (s.busWrite r v).reply .ack := by
  simp only [hostMove] at h
  split at h
  next off hoff =>
    cases h
    unfold State.writeAt
    cases hr : accessReg w off with
    | none => exact .inl rfl
    | some r =>
      obtain ⟨hw, ho⟩ := accessReg_some hr
      exact .inr ⟨r, hw, ho ▸ windowOffset_some hoff, rfl⟩
  next => cases h

/-- A host read has no side effect on the block (20_memory.md R66). -/
theorem hostMove_read_block {w : Width} {addr : Nat} {s t : State} (h : hostMove (.read w addr) s = .next t) :
    t.block = s.block := by
  simp only [hostMove] at h
  split at h
  next off _ =>
    cases h
    unfold State.readAt
    cases accessReg w off with
    | none => rfl
    | some r => rcases busRead_cases s r with hr | ⟨_, hr⟩ <;> simp only [hr] <;> rfl
  next => cases h

/-! ## OVR (10_state.md R23, 40_sequencer.md R101) -/

/-- What a host write of a register does to OVR: a dropped write sets it, a write of STATUS with bit 3 set clears it. -/
theorem busWrite_ovr_cases (s : State) (r : Reg) (v : Word) :
    (s.busWrite r v).ovr = s.ovr ∨
    (s.busy = true ∧ (r = .cmd ∨ r = .len ∨ r = .lang ∨ ∃ k, r = .ent k) ∧ (s.busWrite r v).ovr = true) ∨
    (r = .status ∧ v.getLsbD 3 = true ∧ (s.busWrite r v).ovr = false) := by
  cases r with
  | status =>
    cases hv : v.getLsbD 3 with
    | false => exact .inl (by simp only [State.busWrite, hv]; rfl)
    | true => exact .inr (.inr ⟨rfl, rfl, by simp only [State.busWrite, hv]; rfl⟩)
  | cmd | len | lang | ent =>
    cases hb : s.busy with
    | false => exact .inl (by simp [State.busWrite, hb])
    | true => exact .inr (.inl ⟨rfl, by simp, by simp [State.busWrite, hb]⟩)
  | dig | csum | nWords | wIdx | wLen | idx | word | reserved => exact .inl rfl

/-- No perform step touches OVR (10_state.md R43). -/
theorem perform_ovr {s t : State} (h : perform s = .next t) : t.ovr = s.ovr := by
  rcases perform_cases h with ⟨i, _, rfl⟩ | ⟨_, _, rfl⟩
  · obtain ⟨_, _, hovr, _⟩ := commandFrames i s _ (exec_eq i s)
    exact hovr
  · rfl

/-- The host's move is a write that is dropped because the block is busy (40_sequencer.md R101). -/
def IsDroppedWrite (s : State) (m : HostMove) : Prop :=
  s.busy = true ∧ ∃ r v, m = .write .word (s.cfg.regBase + Reg.offset r) v ∧
    (r = .cmd ∨ r = .len ∨ r = .lang ∨ ∃ k, r = .ent k)

/-- The host's move is a reset or the write of STATUS that clears OVR (10_state.md R23). -/
def ClearsOvr (s : State) (m : HostMove) : Prop :=
  m = .reset ∨ ∃ v, v.getLsbD 3 = true ∧ m = .write .word (s.cfg.regBase + Reg.offset .status) v

/-- What a move of the host does to OVR. -/
theorem hostMove_ovr_cases {m : HostMove} {s t : State} (h : hostMove m s = .next t) :
    t.ovr = s.ovr ∨ (IsDroppedWrite s m ∧ t.ovr = true) ∨ (ClearsOvr s m ∧ t.ovr = false) := by
  cases m with
  | read w addr =>
    have hovr : t.block.ovr = s.block.ovr := by rw [hostMove_read_block h]
    exact .inl hovr
  | write w addr v =>
    rcases hostMove_write_cases h with rfl | ⟨r, rfl, rfl, rfl⟩
    · exact .inl rfl
    · rcases busWrite_ovr_cases s r v with hkeep | ⟨hb, hr, ht⟩ | ⟨rfl, hv, ht⟩
      · exact .inl hkeep
      · exact .inr (.inl ⟨⟨hb, r, v, rfl, hr⟩, ht⟩)
      · exact .inr (.inr ⟨.inr ⟨v, hv, rfl⟩, ht⟩)
  | wait => cases h; exact .inl rfl
  | reset => cases h; exact .inr (.inr ⟨.inl rfl, rfl⟩)

/-- What a step does to OVR: only the host's move can change it. -/
theorem step_ovr_cases {s t : State} (h : step s = .next t) :
    t.ovr = s.ovr ∨ ∃ m rest, s.hostQ = m :: rest ∧
      ((IsDroppedWrite s m ∧ t.ovr = true) ∨ (ClearsOvr s m ∧ t.ovr = false)) := by
  rcases step_cases h with ⟨_, hp⟩ | ⟨_, _, rfl⟩ | ⟨m, rest, hq, hm⟩
  · exact .inl (perform_ovr hp)
  · exact .inl rfl
  · exact (hostMove_ovr_cases hm).imp_right fun hc => ⟨m, rest, hq, hc⟩

/-- Settles O54, from what a step does to OVR. -/
theorem overrunFlagSources : Obligations.OverrunFlagSources := by
  intro s t h
  rcases step_ovr_cases h with hkeep | ⟨m, rest, hq, ⟨⟨hb, r, v, rfl, hr⟩, ht⟩ | ⟨hc, ht⟩⟩
  · simp +contextual [hkeep]
  · exact ⟨fun _ _ => ⟨hb, r, v, rest, hq, hr⟩, fun _ hf => by simp [ht] at hf⟩
  · refine ⟨fun _ hf => by simp [ht] at hf, fun _ _ => ⟨rest, ?_⟩⟩
    rcases hc with rfl | ⟨v, hv, rfl⟩
    · exact .inl hq
    · exact .inr ⟨v, hv, hq⟩

end Sys2Proof.Machine

/-! ## The register map (10_state.md section 2, 20_memory.md R60, R62) -/

namespace Sys2Proof.Machine

theorem ofOffset_offset (r : Reg) : Reg.ofOffset r.offset = some r := by
  cases r with
  | ent k | dig k | idx k | word k | reserved k => revert k; decide
  | cmd | status | len | lang | csum | nWords | wIdx | wLen => rfl

theorem offset_aligned (r : Reg) : r.offset % 4 = 0 := by
  cases r <;> simp only [Reg.offset] <;> omega

theorem offset_lt (r : Reg) : r.offset < 256 := by
  cases r <;> simp only [Reg.offset] <;> omega

/-- The ranges of register numbers leave no gap. -/
theorem ofNumber_exists {n : Nat} (h : n < 64) : ∃ r, Reg.ofNumber n = some r := by
  fun_cases Reg.ofNumber n with
  | case14 => omega
  | _ => exact ⟨_, rfl⟩

theorem ofOffset_exists {off : Nat} (haligned : off % 4 = 0) (hlt : off < 256) : ∃ r, Reg.ofOffset off = some r := by
  rw [Reg.ofOffset, if_pos haligned]
  exact ofNumber_exists (by omega)

/-- Settles O39: `Reg.ofOffset` and `Reg.offset` are inverse to each other, and every aligned offset has a register. -/
theorem registersAndOffsetsCorrespond : Obligations.RegistersAndOffsetsCorrespond :=
  ⟨fun r => ⟨ofOffset_offset r, offset_aligned r, offset_lt r⟩, fun _ _ => offset_of_ofOffset,
    fun _ => ofOffset_exists, rfl, rfl, rfl, rfl, fun _ => rfl, fun _ => rfl, rfl, rfl, rfl, rfl, fun _ => rfl,
    fun _ => rfl, fun _ => rfl⟩

/-! ## The answer to a host access (20_memory.md R60-R64, 60_exceptions.md R217) -/

theorem windowOffset_inside {p : Platform} {addr : Nat} (h : p.regBase ≤ addr ∧ addr < p.regBase + 256) :
    windowOffset p addr = some (addr - p.regBase) := if_pos h

theorem windowOffset_outside {p : Platform} {addr : Nat} (h : ¬ (p.regBase ≤ addr ∧ addr < p.regBase + 256)) :
    windowOffset p addr = none := if_neg h

theorem windowOffset_regBase_add {p : Platform} {off : Nat} (h : off < 256) :
    windowOffset p (p.regBase + off) = some off := by
  rw [windowOffset_inside (by omega), Nat.add_sub_cancel_left]

/-- A narrow or misaligned access reaches no register (20_memory.md R62). -/
theorem accessReg_wrong {w : Width} {off : Nat} (h : w ≠ .word ∨ off % 4 ≠ 0) : accessReg w off = none := by
  cases w with
  | byte | half => rfl
  | word => exact if_neg (h.resolve_left fun hw => hw rfl)

theorem hostMove_read_inside {s : State} {w : Width} {addr off : Nat} (h : windowOffset s.cfg addr = some off) :
    hostMove (.read w addr) s = .next (s.readAt w off) := by simp only [hostMove, h]

theorem hostMove_write_inside {s : State} {w : Width} {addr off : Nat} (v : Word)
    (h : windowOffset s.cfg addr = some off) :
    hostMove (.write w addr v) s = .next (s.writeAt w off v) := by simp only [hostMove, h]

theorem readAt_of_accessReg {s : State} {w : Width} {off : Nat} {r : Reg} (h : accessReg w off = some r) :
    s.readAt w off = (s.busRead r).2.reply (.data (s.busRead r).1) := by simp only [State.readAt, h]

theorem readAt_of_accessReg_none {s : State} {w : Width} {off : Nat} (h : accessReg w off = none) :
    s.readAt w off = s.reply .busError := by simp only [State.readAt, h]

theorem writeAt_of_accessReg {s : State} {w : Width} {off : Nat} {r : Reg} (v : Word)
    (h : accessReg w off = some r) : s.writeAt w off v = (s.busWrite r v).reply .ack := by
  simp only [State.writeAt, h]

theorem writeAt_of_accessReg_none {s : State} {w : Width} {off : Nat} (v : Word) (h : accessReg w off = none) :
    s.writeAt w off v = s.reply .busError := by simp only [State.writeAt, h]

theorem busRead_replies (s : State) (r : Reg) : (s.busRead r).2.replies = s.replies := by
  rcases busRead_cases s r with h | ⟨_, h⟩ <;> rw [h]

/-- Settles O43: the window offset of a register's address is the register's offset, which names the register. -/
theorem alignedAccessReachesItsRegister : Obligations.AlignedAccessReachesItsRegister := by
  intro s r v
  have hoff : windowOffset s.cfg (s.cfg.regBase + r.offset) = some r.offset := windowOffset_regBase_add (offset_lt r)
  have hreg : accessReg .word r.offset = some r := ofOffset_offset r
  obtain ⟨_, _, hreplies⟩ := busWrite_frame s r v
  constructor
  · rw [hostMove_read_inside hoff, readAt_of_accessReg hreg, State.reply, busRead_replies]
  · rw [hostMove_write_inside v hoff, writeAt_of_accessReg v hreg, State.reply, hreplies]

/-- Settles O44: the access reaches no register, so the bus error is all there is of it. -/
theorem wrongAccessGetsABusError : Obligations.WrongAccessGetsABusError := by
  intro s w addr v hlo hhi hwrong
  have hoff := windowOffset_inside ⟨hlo, hhi⟩
  have hreg := accessReg_wrong hwrong
  constructor
  · rw [hostMove_read_inside hoff, readAt_of_accessReg_none hreg, State.reply]
  · rw [hostMove_write_inside v hoff, writeAt_of_accessReg_none v hreg, State.reply]

/-! ## Reads (20_memory.md R63, R66) -/

/-- A read is exact and changes nothing unless a command in flight may write the register. -/
theorem busRead_exact {s : State} {r : Reg} (h : s.busy = false ∨ inWriteSet (decode s.pend) r = false) :
    s.busRead r = (s.regValue r, s) := by
  have hfixed : ¬ (s.busy && inWriteSet (decode s.pend) r) = true := by
    rcases h with h | h <;> simp [h]
  exact if_neg hfixed

/-- Settles O46: an access reads through `busRead`, a poll reads STATUS, and an exact read can be made again. -/
theorem readsHaveNoSideEffect : Obligations.ReadsHaveNoSideEffect := by
  refine ⟨fun s t w addr => hostMove_read_block, fun s t h => ?_, fun s r h => ?_⟩
  · cases h; rfl
  · rw [busRead_exact h]
    exact ⟨rfl, by rw [busRead_exact h]⟩

/-- CSUM as a number: CSLEN in the bits above CS (10_state.md R28). -/
theorem csumWord_eq_ofNat (s : State) : s.csumWord = BitVec.ofNat 32 (s.csLen.toNat * 2 ^ 8 + s.cs.toNat) := by
  have hcs := s.cs.isLt
  have hlen := s.csLen.isLt
  apply BitVec.eq_of_toNat_eq
  rw [← Nat.shiftLeft_eq, Nat.shiftLeft_add_eq_or_of_lt hcs]
  simp [State.csumWord, Nat.mod_eq_of_lt (show s.csLen.toNat < 4294967296 by omega)]

/-- Settles O40: an idle read gives the register's value, and that of CSUM is its two fields side by side. -/
theorem registerReads : Obligations.RegisterReads := by
  intro s hb
  simp only [busRead_idle hb, ← csumWord_eq_ofNat]
  exact ⟨rfl, rfl, rfl, rfl, fun _ => rfl, fun _ => rfl, rfl, rfl, rfl, rfl, fun _ => rfl, fun _ => rfl, fun _ => rfl⟩

/-! ## Writes (20_memory.md R64) -/

/-- A write of CMD or of an input is dropped while a command is in flight (40_sequencer.md R101). -/
theorem busWrite_busy {s : State} {r : Reg} (v : Word) (hb : s.busy = true)
    (hr : r = .cmd ∨ r = .len ∨ r = .lang ∨ ∃ k, r = .ent k) : s.busWrite r v = s.dropWrite := by
  rcases hr with rfl | rfl | rfl | ⟨k, rfl⟩ <;> simp only [State.busWrite, hb, ↓reduceIte]

theorem busWrite_cmd_idle {s : State} (v : Word) (hb : s.busy = false) : s.busWrite .cmd v = s.issue v := by
  simp [State.busWrite, hb]

theorem busWrite_len_idle {s : State} (v : Word) (hb : s.busy = false) :
    s.busWrite .len v = { s with len := v }.invalidateDerived := by
  simp [State.busWrite, hb]

theorem busWrite_lang_idle {s : State} (v : Word) (hb : s.busy = false) :
    s.busWrite .lang v = { s with lang := v.setWidth 8 }.invalidateWord := by
  simp [State.busWrite, hb]

theorem busWrite_ent_idle {s : State} (k : Fin 8) (v : Word) (hb : s.busy = false) :
    s.busWrite (.ent k) v = { s with ent := s.ent.set k v }.invalidateDerived := by
  simp [State.busWrite, hb]

/-- A write of a result register or of a reserved offset has no effect. -/
theorem busWrite_readOnly {s : State} {r : Reg} (v : Word) (hcmd : r ≠ .cmd) (hstatus : r ≠ .status)
    (hlen : r ≠ .len) (hlang : r ≠ .lang) (hent : ∀ k, r ≠ .ent k) : s.busWrite r v = s := by
  cases r with
  | cmd | status | len | lang => contradiction
  | ent k => exact absurd rfl (hent k)
  | dig | csum | nWords | wIdx | wLen | idx | word | reserved => rfl

/-- Settles O42, register by register. -/
theorem registerWrites : Obligations.RegisterWrites := by
  refine fun s v => ⟨fun hb => ⟨?_, busWrite_len_idle v hb, ?_, fun k => busWrite_ent_idle k v hb⟩,
    fun hb _ => busWrite_busy v hb, rfl, fun _ => busWrite_readOnly v⟩
  · rw [busWrite_cmd_idle v hb]; rfl
  · rw [busWrite_lang_idle v hb, BitVec.setWidth_eq_extractLsb' (by decide)]; rfl

/-! ## The stops of a step (20_memory.md R60, 60_exceptions.md R216) -/

/-- The host's move is an access outside the register window of the platform. -/
def IsOutsideAccess (p : Platform) (m : HostMove) : Prop :=
  ∃ addr w v, (m = .read w addr ∨ m = .write w addr v) ∧ ¬ (p.regBase ≤ addr ∧ addr < p.regBase + 256)

theorem isOutsideAccess_read_iff {p : Platform} {w : Width} {addr : Nat} :
    IsOutsideAccess p (.read w addr) ↔ ¬ (p.regBase ≤ addr ∧ addr < p.regBase + 256) := by
  simp [IsOutsideAccess]

theorem isOutsideAccess_write_iff {p : Platform} {w : Width} {addr : Nat} {v : Word} :
    IsOutsideAccess p (.write w addr v) ↔ ¬ (p.regBase ≤ addr ∧ addr < p.regBase + 256) := by
  simp [IsOutsideAccess]

/-- A move of the host stops the model on an access outside the register window, and on nothing else. -/
theorem hostMove_outcome (m : HostMove) (s : State) :
    (IsOutsideAccess s.cfg m ∧ hostMove m s = .fault .outsideWindow) ∨
    (¬ IsOutsideAccess s.cfg m ∧ ∃ t, hostMove m s = .next t) := by
  cases m with
  | read w addr =>
    rw [isOutsideAccess_read_iff, not_not]
    by_cases h : s.cfg.regBase ≤ addr ∧ addr < s.cfg.regBase + 256
    · exact .inr ⟨h, _, hostMove_read_inside (windowOffset_inside h)⟩
    · exact .inl ⟨h, by simp only [hostMove, windowOffset_outside h]⟩
  | write w addr v =>
    rw [isOutsideAccess_write_iff, not_not]
    by_cases h : s.cfg.regBase ≤ addr ∧ addr < s.cfg.regBase + 256
    · exact .inr ⟨h, _, hostMove_write_inside v (windowOffset_inside h)⟩
    · exact .inl ⟨h, by simp only [hostMove, windowOffset_outside h]⟩
  | wait | reset => exact .inr ⟨by simp [IsOutsideAccess], _, rfl⟩

/-- It is the host's turn, and its next move is an access outside the register window. -/
def StopsNext (s : State) : Prop :=
  (s.busy = false ∨ 0 < s.latency) ∧ ∃ m rest, s.hostQ = m :: rest ∧ IsOutsideAccess s.cfg m

/-- While the host has a move left, the engine's turn comes when its latency has run out (40_sequencer.md R105). -/
theorem engineTurn_of_hostQ_cons {s : State} {m : HostMove} {rest : List HostMove} (hq : s.hostQ = m :: rest) :
    s.engineTurn = true ↔ ¬ (s.busy = false ∨ 0 < s.latency) := by
  simp [State.engineTurn, hq]

/-- What a step can be: it stops on the host's access outside the window, and goes on in every other case. -/
theorem step_outcome (s : State) :
    (StopsNext s ∧ step s = .fault .outsideWindow) ∨ (¬ StopsNext s ∧ ∃ t, step s = .next t) := by
  unfold step
  split
  next hengine =>
    obtain ⟨t, ht, _⟩ := perform_next s
    refine .inr ⟨?_, t, ht⟩
    rintro ⟨hhost, m, rest, hq, _⟩
    exact (engineTurn_of_hostQ_cons hq).1 hengine hhost
  next hengine =>
    unfold hostStep
    cases hq : s.hostQ with
    | nil => exact .inr ⟨by simp [StopsNext, hq], s, rfl⟩
    | cons m rest =>
      have hhost : s.busy = false ∨ 0 < s.latency := not_not.1 (mt (engineTurn_of_hostQ_cons hq).2 hengine)
      have hstop : StopsNext s ↔ IsOutsideAccess s.cfg m := by simp [StopsNext, hhost, hq]
      rw [hstop]
      exact hostMove_outcome m { s with hostQ := rest, latency := s.latency - 1 }

/-- `StopsNext` with the host's access written out. -/
theorem stopsNext_iff (s : State) :
    StopsNext s ↔ (s.busy = false ∨ 0 < s.latency) ∧
      ∃ addr w v rest, (s.hostQ = .read w addr :: rest ∨ s.hostQ = .write w addr v :: rest) ∧
        ¬ (s.cfg.regBase ≤ addr ∧ addr < s.cfg.regBase + 256) := by
  refine and_congr_right fun _ => ⟨?_, ?_⟩
  · rintro ⟨m, rest, hq, addr, w, v, rfl | rfl, hout⟩
    · exact ⟨addr, w, v, rest, .inl hq, hout⟩
    · exact ⟨addr, w, v, rest, .inr hq, hout⟩
  · rintro ⟨addr, w, v, rest, hq | hq, hout⟩
    · exact ⟨_, rest, hq, isOutsideAccess_read_iff.2 hout⟩
    · exact ⟨_, rest, hq, isOutsideAccess_write_iff.2 hout⟩

/-- Settles O53, from what a step can be. -/
theorem stepStopsOnlyOutsideTheWindow : Obligations.StepStopsOnlyOutsideTheWindow := by
  intro s
  rw [← stopsNext_iff]
  rcases step_outcome s with ⟨hstop, h⟩ | ⟨hgo, t, h⟩
  · simp [h, hstop]
  · simp [h, hgo]

end Sys2Proof.Machine

/-! ## Decoding and encoding agree (30_encoding.md R80-R87) -/

namespace Sys2Proof.Machine

/-- A command has an encoding when its argument fits ARG, which is 16 bits wide (30_encoding.md R80, R87). -/
theorem wellFormed_iff (i : Instr) : i.wellFormed = true ↔ argument i < 65536 := by
  cases i <;> simp [Instr.wellFormed, argument]

/-- What decodes is well formed: its argument came out of the 16 bits of ARG. -/
theorem wellFormed_of_decode {w : Word} {i : Instr} (h : decode w = .ok i) : i.wellFormed = true := by
  obtain ⟨_, _, harg⟩ := (decode_ok_iff w i).1 h
  rw [wellFormed_iff, ← harg]
  exact (argField w).isLt

/-- A legal word is the encoding of what it decodes to: the two have the same three fields. -/
theorem encode_of_decode {w : Word} {i : Instr} (h : decode w = .ok i) : encode i = w := by
  obtain ⟨hrsv, hop, harg⟩ := (decode_ok_iff w i).1 h
  obtain ⟨hrsv', hop', harg'⟩ := encode_fields i
  refine word_eq_of_fields (BitVec.eq_of_toNat_eq ?_) (hrsv'.trans hrsv.symm) (hop'.trans hop.symm)
  rw [harg' (wellFormed_of_decode h), harg]

/-- Settles O1: a word's three fields fix its command, and a well-formed command fixes the three fields of its word. -/
theorem decodeAndEncodeAgree : Obligations.DecodeAndEncodeAgree := by
  refine fun w i => ⟨fun h => ⟨wellFormed_of_decode h, encode_of_decode h⟩, ?_⟩
  rintro ⟨hi, rfl⟩
  exact decode_encode hi

/-! ## The fields of a word as numbers (30_encoding.md R80) -/

theorem argField_toNat (c : Word) : (argField c).toNat = (c >>> 16).toNat := by
  have hc := c.isLt
  simp only [argField, BitVec.extractLsb'_toNat, BitVec.toNat_ushiftRight, Nat.shiftRight_eq_div_pow]
  omega

theorem rsvField_eq_zero_iff (c : Word) : rsvField c = 0 ↔ c.toNat / 2 ^ 4 % 2 ^ 12 = 0 := by
  rw [← BitVec.toNat_inj, rsvField, BitVec.extractLsb'_toNat, Nat.shiftRight_eq_div_pow]
  rfl

theorem opField_toNat (c : Word) : (opField c).toNat = c.toNat % 2 ^ 4 := by
  rw [opField, BitVec.extractLsb'_toNat, Nat.shiftRight_zero]

theorem and_lowHalf_toNat (c : Word) : (c &&& 0x0000FFFF).toNat = c.toNat % 2 ^ 16 := by
  rw [BitVec.toNat_and]
  exact Nat.and_two_pow_sub_one_eq_mod c.toNat 16

/-- The low half of a word holds RSV and OP, so a mask that keeps it tests RSV = 0 and OP together. -/
theorem and_lowHalf_eq_iff (c : Word) (op : BitVec 4) :
    c &&& 0x0000FFFF = op.setWidth 32 ↔ rsvField c = 0 ∧ opField c = op := by
  have hop := op.isLt
  rw [rsvField_eq_zero_iff, ← BitVec.toNat_inj, ← BitVec.toNat_inj, and_lowHalf_toNat, opField_toNat,
    BitVec.toNat_setWidth]
  omega

/-! ## The command table (30_encoding.md R83) -/

/-- A row without an argument compares the whole word. -/
theorem decode_ok_iff_fullMask (c : Word) {i : Instr} (hi : i.wellFormed = true) :
    decode c = .ok i ↔ c &&& 0xFFFFFFFF = encode i := by
  rw [decodeAndEncodeAgree c i, show c &&& 0xFFFFFFFF = c from BitVec.and_allOnes]
  exact ⟨fun h => h.2.symm, fun h => ⟨hi, h.symm⟩⟩

/-- A row with an argument compares the low half, and takes the high half as its argument. -/
theorem decode_ok_iff_lowMask (c : Word) (i : Instr) :
    decode c = .ok i ↔ c &&& 0x0000FFFF = (opcode i).setWidth 32 ∧ argument i = (c >>> 16).toNat := by
  rw [decode_ok_iff, and_lowHalf_eq_iff, argField_toNat, and_assoc, eq_comm (a := argument i)]

/-- Two rows whose matches differ where both masks look have no word in common. -/
theorem rows_disjoint {r q : Word × Word} (h : r.1 &&& q.2 ≠ q.1 &&& r.2) (c : Word) :
    ¬ (c &&& r.2 = r.1 ∧ c &&& q.2 = q.1) := by
  rintro ⟨hr, hq⟩
  apply h
  rw [← hr, ← hq, BitVec.and_assoc, BitVec.and_assoc, BitVec.and_comm r.2]

/-- Settles O2, row by row: five rows compare the whole word and two its low half. -/
theorem decodeFollowsTheCommandTable : Obligations.DecodeFollowsTheCommandTable := by
  refine ⟨fun c => ⟨decode_ok_iff_fullMask c rfl, decode_ok_iff_fullMask c rfl, decode_ok_iff_fullMask c rfl,
    decode_ok_iff_fullMask c rfl, decode_ok_iff_fullMask c rfl, fun i => decode_ok_iff_lowMask c (.lookup i),
    fun a => decode_ok_iff_lowMask c (.rdrom a)⟩, ?_, rfl, rfl, rfl⟩
  refine List.Pairwise.imp (R := fun r q : Word × Word => r.1 &&& q.2 ≠ q.1 &&& r.2) rows_disjoint ?_
  decide

/-! ## Illegal words (30_encoding.md R84, R85) -/

/-- The legal words: RSV is 0, and OP is that of an argument-free command with ARG 0, of LOOKUP or of RDROM. -/
theorem exists_decode_ok_iff (c : Word) :
    (∃ i, decode c = .ok i) ↔
      rsvField c = 0 ∧ ((opField c).toNat ≤ 4 ∧ argField c = 0 ∨ (opField c).toNat = 5 ∨ (opField c).toNat = 6) := by
  have hzero : (argField c).toNat = 0 ↔ argField c = 0 := by simp [← BitVec.toNat_inj]
  simp only [decode_ok_iff]
  constructor
  · rintro ⟨i, hrsv, hop, harg⟩
    refine ⟨hrsv, ?_⟩
    rw [hop]
    cases i with
    | nop | clear | checksum | extract | encode => exact .inl ⟨by simp [opcode], hzero.1 harg⟩
    | lookup => exact .inr (.inl rfl)
    | rdrom => exact .inr (.inr rfl)
  · rintro ⟨hrsv, hop⟩
    have hnone : (opField c).toNat ≤ 4 → (argField c).toNat = 0 := fun _ => hzero.2 (hop.elim And.right (by omega))
    rcases opField_cases (opField c) with h | h | h | h | h | h | h | h
    · exact ⟨.nop, hrsv, h, hnone (by simp [h])⟩
    · exact ⟨.clear, hrsv, h, hnone (by simp [h])⟩
    · exact ⟨.checksum, hrsv, h, hnone (by simp [h])⟩
    · exact ⟨.extract, hrsv, h, hnone (by simp [h])⟩
    · exact ⟨.encode, hrsv, h, hnone (by simp [h])⟩
    · exact ⟨.lookup (argField c).toNat, hrsv, h, rfl⟩
    · exact ⟨.rdrom (argField c).toNat, hrsv, h, rfl⟩
    · omega

theorem exists_decode_error_iff (c : Word) : (∃ why, decode c = .error why) ↔ ¬ ∃ i, decode c = .ok i := by
  cases decode c <;> simp

/-- Settles O3: the three cases are the complement of the legal words, since an OP is at most 4, or 5, or 6, or else
reserved. -/
theorem illegalWordsAreExactlyThese : Obligations.IllegalWordsAreExactlyThese := by
  intro c
  change _ ↔ rsvField c ≠ 0 ∨ 7 ≤ (opField c).toNat ∨ (opField c).toNat ≤ 4 ∧ argField c ≠ 0
  rw [exists_decode_error_iff, exists_decode_ok_iff]
  grind

/-- Settles O4: every word is written out, so the decoder is run on each. -/
theorem writtenWordsDecode : Obligations.WrittenWordsDecode := by
  unfold Obligations.WrittenWordsDecode
  decide

end Sys2Proof.Machine

/-! ## The assembler (30_encoding.md R86, R87) -/

namespace Sys2Proof.Machine

theorem assemble_command {p : Platform} {i : Instr} (hi : i.wellFormed = true) :
    assemble p (.command i) = some (.write .word (p.regBase + Reg.cmd.offset) (encode i)) := if_pos hi

theorem assemble_command_none {p : Platform} {i : Instr} (hi : ¬ i.wellFormed = true) :
    assemble p (.command i) = none := if_neg hi

theorem assemble_wr {p : Platform} {r : Reg} (v : Word) (hr : r.writable = true) :
    assemble p (.wr r v) = some (.write .word (p.regBase + r.offset) v) := if_pos hr

/-- Settles O56: a well-formed command is a write of its word, whatever its argument, and no other is accepted. -/
theorem assemblerExpansions : Obligations.AssemblerExpansions := by
  refine fun p => ⟨assemble_command rfl, assemble_command rfl, assemble_command rfl, assemble_command rfl,
    assemble_command rfl, fun i hi => assemble_command ((wellFormed_iff (.lookup i)).2 hi),
    fun a ha => assemble_command ((wellFormed_iff (.rdrom a)).2 ha),
    fun i hi => ⟨assemble_command_none ?_, assemble_command_none ?_⟩, fun _ => rfl, fun _ => rfl, ?_⟩
  · exact fun hw => absurd ((wellFormed_iff (.lookup i)).1 hw) hi.not_gt
  · exact fun hw => absurd ((wellFormed_iff (.rdrom i)).1 hw) hi.not_gt
  · rintro r v (rfl | rfl | rfl | rfl | ⟨k, rfl⟩) <;> exact assemble_wr v rfl

end Sys2Proof.Machine

/-! ## A command and its `wait` (30_encoding.md R88, 40_sequencer.md R105)

The write of CMD issues the command; while the latency lasts every poll reads BUSY = 1 and is made again; then the
engine performs, and the next poll reads the final STATUS. -/

namespace Sys2Proof.Machine

/-- The host moves next while the block is idle or the engine's latency lasts. -/
theorem step_of_hostTurn {s : State} {m : HostMove} {rest : List HostMove} (hq : s.hostQ = m :: rest)
    (hturn : s.busy = false ∨ 0 < s.latency) :
    step s = hostMove m { s with hostQ := rest, latency := s.latency - 1 } := by
  have hengine : ¬ s.engineTurn = true := fun h => (engineTurn_of_hostQ_cons hq).1 h hturn
  simp only [step, if_neg hengine, hostStep, hq]

/-- A 32-bit write at a register's address is the write of that register (20_memory.md R64). -/
theorem hostMove_write_reg (s : State) (r : Reg) (v : Word) :
    hostMove (.write .word (s.cfg.regBase + r.offset) v) s = .next ((s.busWrite r v).reply .ack) := by
  have hreg : accessReg .word r.offset = some r := ofOffset_offset r
  rw [hostMove_write_inside v (windowOffset_regBase_add (offset_lt r)), writeAt_of_accessReg v hreg]

/-- The step that issues a command: on an idle block the host's write of CMD is accepted (40_sequencer.md R100). -/
theorem step_write_cmd {s : State} {v : Word} {rest : List HostMove} (hb : s.busy = false)
    (hq : s.hostQ = .write .word (s.cfg.regBase + Reg.cmd.offset) v :: rest) :
    step s = .next ((s.issue v).withModel (Config.latency s.draws) (s.draws + 1) rest (.ack :: s.replies)) := by
  have hissue := busWrite_cmd_idle (s := { s with hostQ := rest, latency := s.latency - 1 }) v hb
  rw [step_of_hostTurn hq (.inl hb), hostMove_write_reg { s with hostQ := rest, latency := s.latency - 1 }, hissue]
  rfl

/-- A poll that reads BUSY = 1 stands again at the head of the host's moves. -/
theorem poll_busy {s : State} (hb : s.busy = true) (n d : Nat) (q : List HostMove) (r : List BusReply) :
    (s.withModel n d q r).poll = s.withModel n d (.wait :: q) (.data s.statusWord :: r) := by
  rw [State.poll, if_pos (show (s.withModel n d q r).busy = true from hb)]
  rfl

/-- A poll that reads BUSY = 0 is the last one. -/
theorem poll_idle {s : State} (hb : s.busy = false) (n d : Nat) (q : List HostMove) (r : List BusReply) :
    (s.withModel n d q r).poll = s.withModel n d q (.data s.statusWord :: r) := by
  rw [State.poll, if_neg (show ¬ (s.withModel n d q r).busy = true from Bool.eq_false_iff.1 hb)]
  rfl

/-- While the latency lasts, a step is a poll, and it uses up one move of the latency. -/
theorem step_wait_busy {s : State} (hb : s.busy = true) (n d : Nat) (rest : List HostMove) (r : List BusReply) :
    step (s.withModel (n + 1) d (.wait :: rest) r) =
      .next (s.withModel n d (.wait :: rest) (.data s.statusWord :: r)) :=
  (step_of_hostTurn (s := s.withModel (n + 1) d (.wait :: rest) r) rfl (.inr n.succ_pos)).trans
    (congrArg Host.Outcome.next (poll_busy hb n d rest r))

/-- On an idle block the step is the last poll. -/
theorem step_wait_idle {s : State} (hb : s.busy = false) (d : Nat) (rest : List HostMove) (r : List BusReply) :
    step (s.withModel 0 d (.wait :: rest) r) = .next (s.withModel 0 d rest (.data s.statusWord :: r)) :=
  (step_of_hostTurn (s := s.withModel 0 d (.wait :: rest) r) rfl (.inl hb)).trans
    (congrArg Host.Outcome.next (poll_idle hb 0 d rest r))

/-- When the latency is over, the engine performs the command in flight (40_sequencer.md R102). -/
theorem step_perform {s t : State} (hb : s.busy = true) (h : perform s = .next t) (d : Nat) (q : List HostMove)
    (r : List BusReply) : step (s.withModel 0 d q r) = .next (t.withModel 0 d q r) := by
  have hturn : (s.withModel 0 d q r).engineTurn = true := by simp [State.engineTurn, State.withModel, hb]
  rw [step_of_engineTurn hturn, perform_withModel h]

/-- The `wait` loop on a command in flight with latency `n`: `n` polls that read BUSY = 1, the perform step, and the
poll that ends the loop. -/
theorem runsTo_wait {s t : State} (hb : s.busy = true) (h : perform s = .next t) (ht : t.busy = false) (n d : Nat)
    (rest : List HostMove) (r : List BusReply) :
    ∃ rs, RunsTo (n + 2) (s.withModel n d (.wait :: rest) r) (t.withModel 0 d rest (.data t.statusWord :: rs)) := by
  induction n generalizing r with
  | zero =>
    have hpoll := runsTo_succ.2 ⟨_, step_wait_idle ht d rest r, runsTo_zero.2 rfl⟩
    exact ⟨r, runsTo_succ.2 ⟨_, step_perform hb h d _ r, hpoll⟩⟩
  | succ n ih =>
    obtain ⟨rs, hrun⟩ := ih (.data s.statusWord :: r)
    exact ⟨rs, runsTo_succ.2 ⟨_, step_wait_busy hb n d rest r, hrun⟩⟩

/-- Settles O57: the issue, then the `wait` loop, whose perform step is that of the synchronous form. -/
theorem commandCompletesAndWaitReturns : Obligations.CommandCompletesAndWaitReturns := by
  intro s v rest hb hq
  obtain ⟨u, hu, hidle, _⟩ := perform_next (s.issue v)
  obtain ⟨rs, hrun⟩ := runsTo_wait rfl hu hidle (Config.latency s.draws) (s.draws + 1) rest (.ack :: s.replies)
  have hcommand : s.command v = .next u := by rw [State.command, busWrite_cmd_idle v hb, hu]
  exact ⟨_, u, rs, hcommand, runsTo_succ.2 ⟨_, step_write_cmd hb hq, hrun⟩, rfl, hidle, rfl, rfl⟩

end Sys2Proof.Machine

/-! ## The perform step and the host's turn (40_sequencer.md R100-R105)

What the block holds decides what a command does, the engine's turn decides who moves, and the host's moves leave the
block of a command in flight alone. -/

namespace Sys2Proof.Machine

/-- A perform step on the block alone ends in the block of its result, whatever stood in the model's own fields. -/
theorem perform_block {s t : State} (h : perform s = .next t) : perform s.block = .next t.block :=
  perform_withModel h 0 0 [] []

/-- Settles O26: both results are that of the perform step on the one block. -/
theorem performDependsOnTheBlockAlone : Obligations.PerformDependsOnTheBlockAlone := by
  intro s s' t t' hblock h h'
  have hresult := perform_block h
  rw [hblock, perform_block h'] at hresult
  exact (Host.Outcome.next.inj hresult).symm

/-! ## A command in flight (40_sequencer.md R101) -/

/-- While a command is in flight a host write can change OVR only: it is dropped, or it is a write of STATUS, or it
reaches a register that takes no write. -/
theorem busWrite_inFlight {s : State} (hb : s.busy = true) (r : Reg) (v : Word) :
    ∃ o, s.busWrite r v = { s with ovr := o } := by
  cases r with
  | cmd | len | lang | ent => exact ⟨true, busWrite_busy v hb (by simp)⟩
  | status =>
    refine ⟨if v.getLsbD 3 then false else s.ovr, ?_⟩
    simp only [State.busWrite]
    split <;> rfl
  | dig | csum | nWords | wIdx | wLen | idx | word | reserved => exact ⟨s.ovr, rfl⟩

/-- A move of the host that is no reset leaves the block of a command in flight as it is, but for OVR. -/
theorem hostMove_inFlight {m : HostMove} {s t : State} (h : hostMove m s = .next t) (hb : s.busy = true)
    (ht : t.busy = true) : { t.block with ovr := s.ovr } = s.block := by
  rcases hostMove_cases h with ⟨_, _, rfl⟩ | ⟨r, v, _, rfl⟩ | rfl | rfl
  · rfl
  · obtain ⟨o, ho⟩ := busWrite_inFlight hb r v
    rw [ho]
    rfl
  · rfl
  · cases ht

/-- Settles O55: a perform step ends idle, and of the host's moves only a reset does more than change OVR. -/
theorem commandInFlightIsUndisturbed : Obligations.CommandInFlightIsUndisturbed := by
  intro s t h hb ht
  rcases step_cases h with ⟨_, hp⟩ | ⟨hidle, _, _⟩ | ⟨_, rest, _, hm⟩
  · obtain ⟨u, hu, hidle, _⟩ := perform_next s
    obtain rfl : t = u := Host.Outcome.next.inj (hp.symm.trans hu)
    simp [hidle] at ht
  · simp [hidle] at hb
  · exact hostMove_inFlight (s := { s with hostQ := rest, latency := s.latency - 1 }) hm hb ht

/-! ## Whose turn it is (40_sequencer.md R102, R103, R105) -/

theorem engineTurn_iff (s : State) : s.engineTurn = true ↔ s.busy = true ∧ (s.latency = 0 ∨ s.hostQ = []) := by
  simp [State.engineTurn]

theorem perform_of_decode {s : State} {i : Instr} (h : decode s.pend = .ok i) : perform s = exec i s := by
  simp only [perform, h]

theorem perform_of_illegal {s : State} {why : Illegal} (h : decode s.pend = .error why) :
    perform s = .next (s.raiseError noFail .illegalCommand) := by
  simp only [perform, h, performIllegal, State.finish_error]

/-- A run that has ended rests (log entry 8). -/
theorem step_of_runEnded {s : State} (h : s.runEnded) : step s = .next s := by
  obtain ⟨hq, hb⟩ := h
  have hturn : ¬ s.engineTurn = true := by simp [engineTurn_iff, hb]
  simp only [step, if_neg hturn, hostStep, hq]

/-- Settles O5: at the engine's turn the step is the perform step, which runs the decoded command. -/
theorem stepPerformsTheDecodedCommand : Obligations.StepPerformsTheDecodedCommand := by
  intro s i hb hturn hd
  rw [step_of_engineTurn ((engineTurn_iff s).2 ⟨hb, hturn⟩), perform_of_decode hd]

/-- Settles O6: the perform step of an illegal word takes the error, and its `Fail` clears nothing. -/
theorem stepOnAnIllegalWord : Obligations.StepOnAnIllegalWord := by
  intro s why hb hturn hd
  rw [step_of_engineTurn ((engineTurn_iff s).2 ⟨hb, hturn⟩), perform_of_illegal hd]
  rfl

/-- Settles O7: it is the host's turn while it has a move and the latency lasts or the block is idle. -/
theorem stepTakesTheHostsNextMove : Obligations.StepTakesTheHostsNextMove :=
  ⟨fun _ _ _ => step_of_hostTurn, fun _ => step_of_runEnded⟩

/-! ## NOP, CLEAR, and the end of every command (40_sequencer.md R102, R106-R109) -/

/-- NOP is its completion alone (40_sequencer.md R106). -/
theorem exec_nop (s : State) : exec .nop s = .next s.complete := exec_eq .nop s

/-- CLEAR is the three clearings of its body, then the completion (40_sequencer.md R107). -/
theorem exec_clear (s : State) :
    exec .clear s = .next { s with ent := Vector.replicate 8 0 }.clearDerived.clearWord.complete := exec_eq .clear s

theorem encode_nop : encode .nop = 0 := by decide

/-- Settles O9: after an issue the flags of the error are already clear, and NOP leaves them so. -/
theorem nopResult : Obligations.NopResult := by
  refine ⟨exec_nop, fun s => ?_⟩
  rw [encode_nop, exec_nop]
  rfl

/-- Settles O10, with the fields that the three clearings name written out. -/
theorem clearResult : Obligations.ClearResult := exec_clear

/-- Settles O22: a command that raises an error is completed like one that succeeds. -/
theorem everyCommandCompletes : Obligations.EveryCommandCompletes :=
  fun i s => ⟨_, exec_eq i s, finish_busy_done _ _ _⟩

end Sys2Proof.Machine

/-! ## Valid and invalid lengths (41_checksum.md R120, R132) -/

namespace Sys2Proof.Machine

/-- `ValidLen` as the rule writes it: a multiple of 32 from 128 to 256 (41_checksum.md R120). -/
theorem validLen_iff_multiple (l : Word) :
    validLen l = true ↔ l.toNat % 32 = 0 ∧ 128 ≤ l.toNat ∧ l.toNat ≤ 256 := by simp [validLen]

/-- The five values of `ValidLen` as words (41_checksum.md R120). -/
theorem validLen_iff_mem (l : Word) : validLen l = true ↔ l ∈ [128#32, 160#32, 192#32, 224#32, 256#32] := by
  simp [validLen_iff, ← BitVec.toNat_inj]

/-- Settles O31: the two forms of the predicate, and the seven words that the rule names as invalid. -/
theorem validLengthsAreFive : Obligations.ValidLengthsAreFive :=
  fun l => ⟨validLen_iff_multiple l, validLen_iff_mem l, by decide⟩

/-- CHECKSUM on a valid LEN makes the writes of its body and completes (41_checksum.md R132). -/
theorem exec_checksum_valid {s : State} (h : validLen s.len = true) :
    exec .checksum s = .next (s.writeChecksum (checksumLen s.len)).complete := by
  rw [exec_eq, bodyOf, checksumBody_valid h, State.finish_ok]

/-- Settles O11, with the fields that the writes and the completion name written out. -/
theorem checksumResult : Obligations.ChecksumResult :=
  fun s hmul hlow hhigh => exec_checksum_valid ((validLen_iff_multiple s.len).2 ⟨hmul, hlow, hhigh⟩)

/-- CHECKSUM and ENCODE check LEN first; an invalid one ends both in the same error (41_checksum.md R132, 42_slicer.md
R155). -/
theorem exec_invalidLen {s : State} {i : Instr} (hi : i = .checksum ∨ i = .encode) (h : validLen s.len = false) :
    exec i s = .next (s.raiseError State.clearDerived .invalidEntropyLength) := by
  rcases hi with rfl | rfl
  · rw [exec_eq, bodyOf, checksumBody_invalid h, State.finish_error, failOf]
  · rw [exec_eq, bodyOf, encodeBody_invalid h, State.finish_error, failOf]

/-- Settles O12: `Fail` of both commands is ClearDerived, and the code of the error is 1. -/
theorem invalidLengthFailsChecksumAndEncode : Obligations.InvalidLengthFailsChecksumAndEncode := by
  intro s i hi hlen
  have hv : validLen s.len = false := by rwa [← Bool.not_eq_true, validLen_iff_multiple]
  exact exec_invalidLen hi hv

/-! ## The entropy (41_checksum.md R121) -/

/-- Four consecutive bytes of a byte string, by their positions. -/
theorem take_four_drop {bs : List Byte} {i : Nat} (h : i + 4 ≤ bs.length) :
    (bs.drop i).take 4 = [bs.getD i 0, bs.getD (i + 1) 0, bs.getD (i + 2) 0, bs.getD (i + 3) 0] := by
  have hget : ∀ j < 4, bs.getD (i + j) 0 = ((bs.drop i).take 4).getD j 0 := by
    intro j hj
    simp [hj]
  apply List.ext_getElem
  · simp; omega
  · intro j h1 h2
    have hj : j < 4 := by simpa using h2
    rw [← List.getD_eq_getElem _ 0 h1, ← List.getD_eq_getElem _ 0 h2, ← hget j hj]
    interval_cases j <;> rfl

/-- Word `k` inside a byte string is the big-endian integer of its bytes `4k` to `4k + 3` (20_memory.md R68). -/
theorem wordAt_toNat {bs : List Byte} {k : Nat} (h : 4 * k + 4 ≤ bs.length) :
    (wordAt bs k).toNat = intBE ((bs.drop (4 * k)).take 4) := by
  rw [wordAt, wordOfBytes_toNat, take_four_drop h]

/-- The integer of the first `n` registers of a packed array is their big-endian concatenation (10_state.md R26). -/
theorem intBE_take_bytesOfArray (v : Vector Word 8) {n : Nat} (hn : n ≤ 8) :
    intBE ((bytesOfArray v).take (4 * n)) =
      (List.range n).foldl (fun x k => x * 2 ^ 32 + (v.toList.getD k 0).toNat) 0 := by
  induction n with
  | zero => rfl
  | succ n ih =>
    have hlen : 4 * n + 4 ≤ (bytesOfArray v).length := by rw [bytesOfArray_length]; omega
    have hfour : (((bytesOfArray v).drop (4 * n)).take 4).length = 4 := by rw [take_four_drop hlen]; rfl
    have hreg : v.toList.getD n 0 = wordAt (bytesOfArray v) n := by
      rw [wordAt_bytesOfArray v n (by omega)]
      simp [List.getD, show n < 8 by omega]
    rw [mul_add_one, List.take_add, intBE_append, hfour, ← wordAt_toNat hlen, ← hreg, ih (by omega),
      List.range_succ, List.foldl_append]
    rfl

/-- Byte `j` of the entropy is byte `j` of ENT (41_checksum.md R121). -/
theorem entBytes_getD (s : State) {j : Nat} (h : j < s.len.toNat / 8) :
    s.entBytes.getD j 0 = (bytesOfArray s.ent).getD j 0 := by
  simp [State.entBytes, h]

/-- Settles O32: a valid LEN is a whole number of registers, at most eight, so its bytes are those of the first LEN/32
registers. -/
theorem entropyIsTheLeadingRegisters : Obligations.EntropyIsTheLeadingRegisters := by
  intro s hv
  obtain ⟨hmul, -, hhigh⟩ := (validLen_iff_multiple s.len).1 hv
  have hlen : s.entBytes.length = s.len.toNat / 8 := entBytes_length hhigh
  refine ⟨hlen, fun j hj hin => ?_, ?_, ?_⟩
  · rw [entBytes_getD s hin, bytesOfArray_getD _ _ hj, byteOfWord]
  · have hbound := intBE_lt s.entBytes
    rwa [hlen, show 8 * (s.len.toNat / 8) = s.len.toNat by omega] at hbound
  · rw [State.entBytes, show s.len.toNat / 8 = 4 * (s.len.toNat / 32) by omega]
    exact intBE_take_bytesOfArray s.ent (by omega)

/-! ## The padded block (41_checksum.md R124) -/

/-- What `Pad` appends to a message of `n` bytes fills the block after the message. -/
theorem sha256Pad_length {bs : List Byte} (h : bs.length ≤ 55) : (sha256Pad bs).length = 64 := by
  simp [sha256Pad]; omega

/-- The message length in bits stands in the last eight bytes. -/
theorem sha256Pad_drop_56 {bs : List Byte} (h : bs.length ≤ 55) :
    (sha256Pad bs).drop 56 = bytesBE (8 * bs.length) 8 := by
  have hfront : (bs ++ [0x80] ++ List.replicate (55 - bs.length) 0).length = 56 := by simp; omega
  rw [sha256Pad, ← hfront, List.drop_left]

/-- Between 0x80 and the length there are zeros only. -/
theorem sha256Pad_getElem?_zero {bs : List Byte} {j : Nat} (hlow : bs.length < j) (hhigh : j < 56) :
    (sha256Pad bs)[j]? = some 0 := by
  have hfront : (bs ++ [0x80]).length = bs.length + 1 := by simp
  rw [sha256Pad, List.append_assoc, List.getElem?_append_right (by omega),
    List.getElem?_append_left (by simp; omega), List.getElem?_replicate, if_pos (by omega)]

/-- Settles O27: the four parts of the padded message, and its words as the integers of their bytes. -/
theorem paddingFillsOneBlock : Obligations.PaddingFillsOneBlock := by
  intro bs h
  have hlen := sha256Pad_length h
  refine ⟨hlen, by simp [sha256Pad], by simp [sha256Pad], fun j => sha256Pad_getElem?_zero, ?_, by simp [sha256Block],
    fun t ht => ?_⟩
  · rw [sha256Pad_drop_56 h, intBE_bytesBE, Nat.mod_eq_of_lt (by omega)]
  · have hword : (sha256Block bs).getD t 0 = wordAt (sha256Pad bs) t := by simp [sha256Block, ht]
    rw [hword, wordAt_toNat (by omega)]

/-! ## The message schedule (41_checksum.md R126)

The schedule only grows at its end, so a word once written stands unchanged in the whole schedule, and so do the words
that the recurrence reads. -/

/-- The recurrence's right side for word `t`, read from `w` (41_checksum.md R126). -/
def recurrenceWord (w : List Word) (t : Nat) : Word :=
  smallSigma1 (w.getD (t - 2) 0) + w.getD (t - 7) 0 + smallSigma0 (w.getD (t - 15) 0) + w.getD (t - 16) 0

theorem scheduleStep_eq (w : List Word) : scheduleStep w = w ++ [recurrenceWord w w.length] := rfl

@[simp] theorem scheduleStep_length (w : List Word) : (scheduleStep w).length = w.length + 1 := by
  simp [scheduleStep_eq]

@[simp] theorem scheduleMore_length (n : Nat) (w : List Word) : (scheduleMore n w).length = w.length + n := by
  induction n generalizing w with
  | zero => rfl
  | succ n ih => rw [scheduleMore, ih, scheduleStep_length]; omega

/-- The schedule only grows at its end. -/
theorem isPrefix_scheduleMore (n : Nat) (w : List Word) : w <+: scheduleMore n w := by
  induction n generalizing w with
  | zero => exact ⟨[], w.append_nil⟩
  | succ n ih =>
    have hstep : w <+: scheduleStep w := ⟨[recurrenceWord w w.length], rfl⟩
    exact hstep.trans (ih (scheduleStep w))

theorem getD_of_isPrefix {v w : List Word} (h : v <+: w) {t : Nat} (ht : t < v.length) : w.getD t 0 = v.getD t 0 := by
  obtain ⟨u, rfl⟩ := h
  exact List.getD_append _ _ _ _ ht

/-- The recurrence reads only words before word `t`. -/
theorem recurrenceWord_of_isPrefix {v w : List Word} (h : v <+: w) {t : Nat} (hpos : 0 < t) (ht : t ≤ v.length) :
    recurrenceWord w t = recurrenceWord v t := by
  have hread : ∀ i, 0 < i → w.getD (t - i) 0 = v.getD (t - i) 0 := fun i hi => getD_of_isPrefix h (by omega)
  simp only [recurrenceWord, hread 2, hread 7, hread 15, hread 16, Nat.ofNat_pos]

/-- Every added word obeys the recurrence in the whole schedule (41_checksum.md R126). -/
theorem scheduleMore_getD {n : Nat} {w : List Word} {t : Nat} (hpos : 0 < w.length) (hlow : w.length ≤ t)
    (hhigh : t < w.length + n) : (scheduleMore n w).getD t 0 = recurrenceWord (scheduleMore n w) t := by
  induction n generalizing w with
  | zero => omega
  | succ n ih =>
    rcases hlow.eq_or_lt with rfl | hlater
    · have hwhole : w <+: scheduleMore (n + 1) w := isPrefix_scheduleMore _ w
      have hstep : scheduleStep w <+: scheduleMore (n + 1) w := isPrefix_scheduleMore n _
      rw [recurrenceWord_of_isPrefix hwhole hpos le_rfl, getD_of_isPrefix hstep (by simp), scheduleStep_eq]
      simp
    · exact ih (w := scheduleStep w) (by simp) (by simpa using hlater) (by rw [scheduleStep_length]; omega)

/-- Settles O28: the schedule begins with the block, and the 48 words after it are added by the recurrence. -/
theorem messageScheduleRecurrence : Obligations.MessageScheduleRecurrence := by
  intro m hm
  refine ⟨by rw [messageSchedule, scheduleMore_length, hm], fun t ht => ?_, fun t hlow hhigh => ?_⟩
  · exact getD_of_isPrefix (isPrefix_scheduleMore 48 m) (by omega)
  · exact scheduleMore_getD (n := 48) (by omega) (by omega) (by omega)

/-! ## The digest and its leading bits (41_checksum.md R129, R130) -/

/-- Byte `j` of a register as a number (20_memory.md R68). -/
theorem byteOfWord_eq_ofNat (w : Word) (j : Nat) : byteOfWord w j = BitVec.ofNat 8 (w.toNat / 2 ^ (24 - 8 * j)) := by
  apply BitVec.eq_of_toNat_eq
  rw [byteOfWord, BitVec.extractLsb'_toNat, Nat.shiftRight_eq_div_pow, BitVec.toNat_ofNat]

/-- The bytes of a register are its number in four bytes, big-endian (00_scope.md R8). -/
theorem bytesOfWord_eq_bytesBE (w : Word) : bytesOfWord w = bytesBE w.toNat 4 := by
  simp only [bytesOfWord, bytesBE, byteOfWord_eq_ofNat]

/-- Settles O29: the digest is the bytes of the hash words, so packing it gives the words back. -/
theorem digestRegistersHoldTheHashWords : Obligations.DigestRegistersHoldTheHashWords := by
  refine fun bs => ⟨sha256_length bs, ?_, fun k => ?_, rfl⟩
  · rw [sha256, ← funext bytesOfWord_eq_bytesBE]
  · rw [← wordAt_sha256 bs k k.isLt]
    simp [packBytes]

/-- Settles O30: the checksum is byte 0 of the digest shifted right by 8 - c. -/
theorem checksumIsTheLeadingBits : Obligations.ChecksumIsTheLeadingBits := by
  intro d c _ hc
  refine ⟨?_, checksumBits_lt d c hc, fun j _ => ?_⟩
  · rw [checksumBits, BitVec.toNat_ushiftRight, Nat.shiftRight_eq_div_pow]
  · rw [checksumBits, BitVec.getLsbD_ushiftRight]

end Sys2Proof.Machine

/-! ## SLC: what EXTRACT and ENCODE leave (42_slicer.md R150-R155) -/

namespace Sys2Proof.Machine

/-- EXTRACT with CS_VALID = 1 whose checks R151 and R152 pass makes its `n` groups and completes (42_slicer.md R154). -/
theorem exec_extract_of_checks {s : State} {n : Nat} (hv : s.csValid = true) (hc : s.csLen.toNat ≤ 8)
    (hw : s.extendedWidth = 11 * n) (hn : n ≤ 24) : exec .extract s = .next (s.writeIndices n).complete := by
  have hmul : s.extendedWidth % 11 = 0 := by omega
  have hdiv : s.extendedWidth / 11 = n := by omega
  have hbody : bodyOf .extract s = .ok (s.writeIndices n) := by simp [bodyOf, extractBody, hv, hc, hmul, hdiv, hn]
  rw [exec_eq, hbody, State.finish_ok]

/-- EXTRACT without a valid checksum ends in SequenceError, before any other check (42_slicer.md R154). -/
theorem exec_extract_of_not_csValid {s : State} (hv : s.csValid = false) :
    exec .extract s = .next (s.raiseError State.clearDerived .sequenceError) := by
  have hbody : bodyOf .extract s = .error .sequenceError := by simp [bodyOf, extractBody, hv]
  rw [exec_eq, hbody, State.finish_error, failOf]

/-- EXTRACT with CS_VALID = 1 and a failed check of R151 or R152 ends in MalformedBitLength (42_slicer.md R154). -/
theorem exec_extract_of_failed_check {s : State} (hv : s.csValid = true)
    (hbad : ¬ (s.csLen.toNat ≤ 8 ∧ s.extendedWidth % 11 = 0 ∧ s.extendedWidth / 11 ≤ 24)) :
    exec .extract s = .next (s.raiseError State.clearDerived .malformedBitLength) := by
  have hbody : bodyOf .extract s = .error .malformedBitLength := by
    rcases extractBody_cases s with ⟨hv', _⟩ | ⟨_, hc, hmul, hn, _⟩ | ⟨_, _, h⟩
    · simp [hv] at hv'
    · exact absurd ⟨hc, hmul, hn⟩ hbad
    · exact h
  rw [exec_eq, hbody, State.finish_error, failOf]

/-- Settles O13, with the fields that the writes and the completion name written out. -/
theorem extractResult : Obligations.ExtractResult := by
  rintro s n x hv hc hw hn rfl
  exact exec_extract_of_checks hv hc hw hn

/-- Settles O14: `Fail` is ClearDerived for both errors, and their codes are 7 and 3. -/
theorem extractErrors : Obligations.ExtractErrors := by
  rintro s code (⟨hv, rfl⟩ | ⟨hv, rfl, hbad⟩)
  · exact exec_extract_of_not_csValid hv
  · exact exec_extract_of_failed_check hv hbad

/-- Settles O33: the width for each of the five valid lengths. -/
theorem groupCountOfEachLength : Obligations.GroupCountOfEachLength := by
  intro s hv hc
  obtain ⟨-, hmul, -, -⟩ := extendedWidth_of_validLen hv hc
  refine ⟨hmul, by rw [State.extendedWidth, hc], ?_⟩
  rcases (validLen_iff _).1 hv with h | h | h | h | h <;> simp [State.extendedWidth, hc, h]

/-- ENCODE on a valid LEN makes CHECKSUM's writes, slices what they leave, and completes (42_slicer.md R155). -/
theorem exec_encode_valid {s : State} (h : validLen s.len = true) :
    exec .encode s =
      .next ((s.writeChecksum (checksumLen s.len)).writeIndices (3 * (s.len.toNat / 32))).complete := by
  rw [exec_eq, bodyOf, encodeBody_valid h, State.finish_ok]

/-- The number of groups of a valid LEN with its checksum length (42_slicer.md R152). -/
theorem groupCount_of_validLen {l : Word} (h : validLen l = true) :
    (l.toNat + l.toNat / 32) / 11 = 3 * (l.toNat / 32) := by
  have := (validLen_iff l).1 h
  omega

/-- X after the writes of CHECKSUM (42_slicer.md R150). -/
theorem extendedValue_writeChecksum {s : State} (h : validLen s.len = true) :
    (s.writeChecksum (checksumLen s.len)).extendedValue =
      intBE s.entBytes * 2 ^ (s.len.toNat / 32) + (checksumBits (sha256 s.entBytes) (checksumLen s.len)).toNat := by
  rw [State.extendedValue, writeChecksum_csLen_toNat h]
  rfl

/-- Settles O15, with the two groups of writes and the completion written out. -/
theorem encodeResult : Obligations.EncodeResult := by
  rintro s e d c n x hmul hlow hhigh rfl rfl rfl rfl rfl
  have hv := (validLen_iff_multiple s.len).2 ⟨hmul, hlow, hhigh⟩
  rw [exec_encode_valid hv, State.writeIndices, extendedValue_writeChecksum hv, ← groupCount_of_validLen hv]
  rfl

/-! ## ENCODE is CHECKSUM and then EXTRACT (42_slicer.md R155) -/

/-- A command in its synchronous form on an idle block is its meaning after the issue (30_encoding.md R88). -/
theorem command_encode_eq_exec {s : State} {i : Instr} (hb : s.busy = false) (hi : i.wellFormed = true) :
    s.command (encode i) = exec i (s.issue (encode i)) := by
  rw [command_eq hb (decode_encode hi), exec_eq]

/-- EXTRACT where the checksum is that of a valid LEN (42_slicer.md R151, R152, R154). -/
theorem exec_extract_validLen {s : State} (hl : validLen s.len = true) (hv : s.csValid = true)
    (hc : s.csLen.toNat = s.len.toNat / 32) :
    exec .extract s = .next (s.writeIndices (3 * (s.len.toNat / 32))).complete := by
  obtain ⟨h8, hmul, hdiv, h24⟩ := extendedWidth_of_validLen hl hc
  exact exec_extract_of_checks hv h8 (by omega) (by omega)

/-- Settles O16: EXTRACT finds after CHECKSUM what ENCODE slices, and the issue between them changes only PEND and what
the completion sets again. -/
theorem encodeEqualsChecksumThenExtract : Obligations.EncodeEqualsChecksumThenExtract := by
  intro s hb hmul hlow hhigh
  have hl := (validLen_iff_multiple s.len).2 ⟨hmul, hlow, hhigh⟩
  have ht := exec_encode_valid (s := s.issue (encode .encode)) hl
  have hu := exec_checksum_valid (s := s.issue (encode .checksum)) hl
  have hv := exec_extract_validLen (s := ((s.issue (encode .checksum)).writeChecksum
    (checksumLen s.len)).complete.issue (encode .extract)) hl rfl (writeChecksum_csLen_toNat hl)
  exact ⟨_, _, _, (command_encode_eq_exec hb rfl).trans ht, (command_encode_eq_exec hb rfl).trans hu,
    (command_encode_eq_exec rfl rfl).trans hv, rfl⟩

/-! ## The two forms of the slicer (42_slicer.md R153, R156, R158)

ENCODE and EXTRACT end alike: they slice a state whose CSUM is of the width of its valid LEN. -/

/-- LEN is valid, and CSUM is of its width (10_state.md R28, 41_checksum.md R122). -/
structure ChecksumFits (s : State) : Prop where
  valid_len : validLen s.len = true
  length    : s.csLen.toNat = s.len.toNat / 32
  bound     : s.cs.toNat < 2 ^ s.csLen.toNat

theorem checksumFits_writeChecksum {s : State} (h : validLen s.len = true) :
    ChecksumFits (s.writeChecksum (checksumLen s.len)) := by
  refine ⟨h, writeChecksum_csLen_toNat h, ?_⟩
  rw [writeChecksum_csLen_toNat h]
  exact checksumBits_lt _ _ (checksumLen_le_of_validLen h)

theorem groupCount_bounds_of_validLen {l : Word} (h : validLen l = true) :
    0 < (l.toNat + l.toNat / 32) / 11 ∧ (l.toNat + l.toNat / 32) / 11 ≤ 24 := by
  have := (validLen_iff l).1 h
  omega

theorem ChecksumFits.extendedWidth_eq {s : State} (hf : ChecksumFits s) :
    s.extendedWidth = 11 * ((s.len.toNat + s.len.toNat / 32) / 11) := by
  obtain ⟨-, hmul, hdiv, -⟩ := extendedWidth_of_validLen hf.valid_len hf.length
  rw [groupCount_of_validLen hf.valid_len]
  omega

/-- What ENCODE and EXTRACT slice: a state with the same entropy and a checksum that fits. -/
theorem exec_slices {i : Instr} {s : State} (hl : validLen s.len = true)
    (hi : i = .encode ∨
      (i = .extract ∧ s.csValid = true ∧ s.csLen.toNat = s.len.toNat / 32 ∧ s.cs.toNat < 2 ^ s.csLen.toNat)) :
    ∃ u, ChecksumFits u ∧ u.len = s.len ∧ u.entBytes = s.entBytes ∧
      exec i s = .next (u.writeIndices ((s.len.toNat + s.len.toNat / 32) / 11)).complete := by
  rw [groupCount_of_validLen hl]
  rcases hi with rfl | ⟨rfl, hv, hc, hcs⟩
  · exact ⟨_, checksumFits_writeChecksum hl, rfl, rfl, exec_encode_valid hl⟩
  · exact ⟨s, ⟨hl, hc, hcs⟩, rfl, rfl, exec_extract_validLen hl hv hc⟩

theorem group_toNat (x n k : Nat) : (group x n k).toNat = x / 2 ^ (11 * (n - 1 - k)) % 2048 := by
  rw [group, BitVec.toNat_ofNat, Nat.mod_mod]

theorem writeIndices_nWords_toNat (s : State) {n : Nat} (hn : n ≤ 24) : (s.writeIndices n).nWords.toNat = n := by
  rw [State.writeIndices_nWords, BitVec.toNat_ofNat]
  omega

theorem writeIndices_idx_toNat (s : State) {n : Nat} {k : Fin 24} (hk : k.val < n) :
    (s.writeIndices n).idx[k].toNat = s.extendedValue / 2 ^ (11 * (n - 1 - k.val)) % 2048 := by
  simp [hk, group_toNat]

/-- Bit `p` of the buffer, counted from the left, is bit `T-1-p` of X (42_slicer.md R150, R158). -/
theorem bufferBit_eq_testBit {s : State} (hf : ChecksumFits s) {p : Nat} (hp : p < s.extendedWidth) :
    s.bufferBit p = s.extendedValue.testBit (s.extendedWidth - 1 - p) := by
  obtain ⟨hl, -, hcs⟩ := hf
  obtain ⟨hmul, -, hhigh⟩ := (validLen_iff_multiple s.len).1 hl
  have hbits : 8 * s.entBytes.length = s.len.toNat := by rw [entBytes_length hhigh]; omega
  rw [State.extendedWidth] at hp ⊢
  rw [State.extendedValue, mul_comm, Nat.testBit_two_pow_mul_add _ hcs, State.bufferBit]
  by_cases h : p < s.len.toNat
  · rw [if_pos h, if_neg (by omega), ← intBE_testBit _ _ (by omega)]
    congr 1
    omega
  · rw [if_neg h, if_pos (by omega), BitVec.testBit_toNat]
    congr 1
    omega

/-- Window `k` of the bit buffer is group `k` of X (42_slicer.md R153, R158). -/
theorem bufferWindow_eq_group {s : State} (hf : ChecksumFits s) {n k : Nat} (hw : s.extendedWidth = 11 * n)
    (hk : k < n) : s.bufferWindow k = s.extendedValue / 2 ^ (11 * (n - 1 - k)) % 2048 := by
  refine fold_bits _ 11 _ _ fun j hj => ?_
  rw [bufferBit_eq_testBit hf (by omega)]
  congr 1
  omega

/-- Settles O34: both commands write the groups of X, and those are the windows. -/
theorem bitBufferEqualsTheGroups : Obligations.BitBufferEqualsTheGroups := by
  intro i s hl hi
  obtain ⟨u, hf, hlen, -, hexec⟩ := exec_slices hl hi
  have hw := hf.extendedWidth_eq
  rw [hlen] at hw
  have hn := writeIndices_nWords_toNat u (groupCount_bounds_of_validLen hl).2
  refine ⟨_, hexec, hn, fun k hk => ?_⟩
  rw [State.complete_nWords, hn] at hk
  exact (writeIndices_idx_toNat u hk).trans (bufferWindow_eq_group hf hw hk).symm

/-- A checksum narrower than `2^c` below a number: dividing by `2^c` separates the two. -/
theorem concat_div_mod {e cs c : Nat} (hcs : cs < 2 ^ c) :
    (e * 2 ^ c + cs) / 2 ^ c = e ∧ (e * 2 ^ c + cs) % 2 ^ c = cs :=
  (Nat.div_mod_unique (Nat.two_pow_pos c)).2 ⟨by ring, hcs⟩

/-- The last group is the last `11 - c` bits of the entropy, then the checksum (42_slicer.md R156). -/
theorem concat_mod_group {e cs c : Nat} (hc : c ≤ 11) (hcs : cs < 2 ^ c) :
    (e * 2 ^ c + cs) % 2048 = e % 2 ^ (11 - c) * 2 ^ c + cs := by
  obtain ⟨hdiv, hmod⟩ := concat_div_mod (e := e) hcs
  have hsplit : 2048 = 2 ^ c * 2 ^ (11 - c) := by rw [← pow_add, Nat.add_sub_cancel' hc]; rfl
  rw [hsplit, Nat.mod_mul, hdiv, hmod]
  ring

/-- What lies `m ≥ c` bits or more above the end is entropy alone (42_slicer.md R156). -/
theorem concat_div_two_pow {e cs c m : Nat} (hc : c ≤ m) (hcs : cs < 2 ^ c) :
    (e * 2 ^ c + cs) / 2 ^ m = e / 2 ^ (m - c) := by
  have hsplit : 2 ^ m = 2 ^ c * 2 ^ (m - c) := by rw [← pow_add, Nat.add_sub_cancel' hc]
  rw [hsplit, ← Nat.div_div_eq_div_mul, (concat_div_mod hcs).1]

/-- Settles O35: group `n - 1` starts at bit 0 of X, and every group before it starts at bit 11 or above, where the
checksum has ended. -/
theorem onlyTheLastGroupHoldsChecksum : Obligations.OnlyTheLastGroupHoldsChecksum := by
  rintro i s c n hl rfl rfl hi
  obtain ⟨u, ⟨-, hc, hcs⟩, hlen, hent, hexec⟩ :=
    exec_slices hl (hi.imp_right fun ⟨h, hv, hc, hcs⟩ => ⟨h, hv, hc, by rwa [hc]⟩)
  obtain ⟨hpos, -⟩ := groupCount_bounds_of_validLen hl
  have h8 : s.len.toNat / 32 ≤ 8 := checksumLen_le_of_validLen hl
  rw [hlen] at hc
  rw [hc] at hcs
  have hx : u.extendedValue = intBE s.entBytes * 2 ^ (s.len.toNat / 32) + u.cs.toNat := by
    rw [State.extendedValue, hc, hent]
  refine ⟨_, hexec, fun k hk => ?_, fun k hk => ?_⟩
  · refine (writeIndices_idx_toNat u (by omega)).trans ?_
    rw [hx, hk, Nat.sub_self, Nat.mul_zero, pow_zero, Nat.div_one]
    exact concat_mod_group (by omega) hcs
  · refine (writeIndices_idx_toNat u (by omega)).trans ?_
    rw [hx, concat_div_two_pow (by omega) hcs]

end Sys2Proof.Machine

/-! ## WLU: what LOOKUP and RDROM leave (43_wordlist.md R174-R176) -/

namespace Sys2Proof.Machine

/-- LOOKUP past its three checks loads the entry at IDX i and completes (43_wordlist.md R175). -/
theorem exec_lookup_of_checks {s : State} {i : Nat} (hv : s.idxValid = true) (hn : i < s.nWords.toNat) (h : i < 24)
    (hr : s.wlReady = true) : exec (.lookup i) s = .next (s.loadWord s.idx[i]).complete := by
  have hbody : bodyOf (.lookup i) s = .ok (s.loadWord s.idx[i]) := by
    simp [bodyOf, lookupBody, State.readWord, hv, hn, h, hr]
  rw [exec_eq, hbody, State.finish_ok]

/-- RDROM past its two checks loads the entry at its address and completes (43_wordlist.md R176). -/
theorem exec_rdrom_of_checks {s : State} {a : Nat} (ha : a < 2048) (hr : s.wlReady = true) :
    exec (.rdrom a) s = .next (s.loadWord (BitVec.ofNat 11 a)).complete := by
  have hbody : bodyOf (.rdrom a) s = .ok (s.loadWord (BitVec.ofNat 11 a)) := by
    simp [bodyOf, rdromBody, State.readWord, ha, hr]
  rw [exec_eq, hbody, State.finish_ok]

/-- An error of LOOKUP clears the word read (60_exceptions.md R214). -/
theorem exec_lookup_of_error {s : State} {i : Nat} {e : ErrCode} (h : lookupBody i s = .error e) :
    exec (.lookup i) s = .next (s.raiseError State.clearWord e) := by
  rw [exec_eq, bodyOf, h, State.finish_error, failOf]

/-- An error of RDROM clears the word read (60_exceptions.md R214). -/
theorem exec_rdrom_of_error {s : State} {a : Nat} {e : ErrCode} (h : rdromBody a s = .error e) :
    exec (.rdrom a) s = .next (s.raiseError State.clearWord e) := by
  rw [exec_eq, bodyOf, h, State.finish_error, failOf]

/-- The first check of LOOKUP: IDX_VALID (43_wordlist.md R175). -/
theorem lookupBody_of_not_idxValid {s : State} (i : Nat) (hv : s.idxValid = false) :
    lookupBody i s = .error .sequenceError := by simp [lookupBody, hv]

/-- The second check of LOOKUP: the position (43_wordlist.md R175). -/
theorem lookupBody_of_outside {s : State} {i : Nat} (hv : s.idxValid = true) (hi : s.nWords.toNat ≤ i ∨ 24 ≤ i) :
    lookupBody i s = .error .indexOutOfRange := by
  have hout : ¬ (i < s.nWords.toNat ∧ i < 24) := by omega
  simp only [lookupBody, hv, hout, ↓reduceIte, ↓reduceDIte]

/-- The third check of LOOKUP: WL_READY (43_wordlist.md R175). -/
theorem lookupBody_of_not_wlReady {s : State} {i : Nat} (hv : s.idxValid = true) (hn : i < s.nWords.toNat)
    (h : i < 24) (hr : s.wlReady = false) : lookupBody i s = .error .wordlistNotLoaded := by
  simp [lookupBody, State.readWord, hv, hn, h, hr]

/-- The first check of RDROM: the address (43_wordlist.md R176). -/
theorem rdromBody_of_outside {s : State} {a : Nat} (ha : 2048 ≤ a) : rdromBody a s = .error .indexOutOfRange :=
  if_neg (Nat.not_lt.2 ha)

/-- The second check of RDROM: WL_READY (43_wordlist.md R176). -/
theorem rdromBody_of_not_wlReady {s : State} {a : Nat} (ha : a < 2048) (hr : s.wlReady = false) :
    rdromBody a s = .error .wordlistNotLoaded := by simp [rdromBody, State.readWord, ha, hr]

/-- Settles O18: one clause for each check, in the order of the checks. -/
theorem lookupErrors : Obligations.LookupErrors := by
  rintro s i code (⟨hv, rfl⟩ | ⟨hv, hi, rfl⟩ | ⟨hv, hn, h, hr, rfl⟩)
  · exact exec_lookup_of_error (lookupBody_of_not_idxValid i hv)
  · exact exec_lookup_of_error (lookupBody_of_outside hv hi)
  · exact exec_lookup_of_error (lookupBody_of_not_wlReady hv hn h hr)

/-- Settles O21: both load the entry at IDX i, which as an 11-bit value is its own address. -/
theorem lookupReadsLikeRdromAtTheIndex : Obligations.LookupReadsLikeRdromAtTheIndex := by
  intro s i h hv hn hr
  have hrdrom := exec_rdrom_of_checks s.idx[i].isLt hr
  rw [BitVec.ofNat_toNat, BitVec.setWidth_eq] at hrdrom
  exact ⟨_, rfl, rfl, exec_lookup_of_checks hv hn h hr, hrdrom⟩

/-- Settles O17, with the fields that LoadWord and the completion name written out. -/
theorem lookupResult : Obligations.LookupResult := by
  rintro s i h w hv hn hr rfl
  exact exec_lookup_of_checks hv hn h hr

/-- Settles O19: an address below 2048 fits WIDX, so the entry read is the one at `a`. -/
theorem rdromResult : Obligations.RdromResult := by
  rintro s a w ha hr rfl
  have haddr : (BitVec.ofNat 11 a).toNat = a := Nat.mod_eq_of_lt ha
  rw [exec_rdrom_of_checks ha hr, State.loadWord, haddr]
  rfl

/-- Settles O20: one clause for each check, in the order of the checks. -/
theorem rdromErrors : Obligations.RdromErrors := by
  rintro s a code (⟨ha, rfl⟩ | ⟨ha, hr, rfl⟩)
  · exact exec_rdrom_of_error (rdromBody_of_outside ha)
  · exact exec_rdrom_of_error (rdromBody_of_not_wlReady ha hr)

/-- Settles O36: an entry of at most 32 bytes fits WORD, and its length fits the 6 bits of WLEN. -/
theorem loadedWordIsTheEntry : Obligations.LoadedWordIsTheEntry := by
  rintro s a w rfl hlen
  refine ⟨?_, take_bytesOfArray_packBytes _ hlen, fun j hj hle => ?_, rfl, rfl⟩
  · exact Nat.mod_eq_of_lt (by omega)
  · rw [State.loadWord_word, bytesOfArray_packBytes_getD _ _ hj, List.getD_eq_default _ _ hle]

end Sys2Proof.Machine

/-! ## The word ROM and its boot check (43_wordlist.md R170-R172, 70_reset_and_hazards.md R233) -/

namespace Sys2Proof.Machine

/-- Every address of a loaded table of a well-formed platform reads the entry that stands there (43_wordlist.md R171,
R172). -/
theorem exists_tableOk_romRead {p : Platform} (hp : p.ok = true) {l : Nat} (hl : p.wlLoaded l = true) :
    ∃ t, tableOk p.wordMax t = true ∧ ∀ a < 2048, t.words[a]? = some (p.romRead l a) := by
  obtain ⟨t, ht, hld⟩ := (wlLoaded_iff p l).1 hl
  obtain ⟨-, -, htables⟩ := (platform_ok_iff p).1 hp
  have hok := htables t (List.mem_of_getElem? ht) hld
  obtain ⟨hlen, -, -⟩ := (tableOk_iff _ _).1 hok
  refine ⟨t, hok, fun a ha => ?_⟩
  have hget : t.words[a]? = some t.words[a] := List.getElem?_eq_getElem (by omega)
  simp only [Platform.romRead, ht, hget, Option.map_some, Option.getD_some]

/-- Distinct addresses of a loaded table hold distinct words (43_wordlist.md R171 item 2). -/
theorem romRead_inj {p : Platform} (hp : p.ok = true) {l a b : Nat} (hl : p.wlLoaded l = true) (ha : a < 2048)
    (hb : b < 2048) (h : p.romRead l a = p.romRead l b) : a = b := by
  obtain ⟨t, hok, hread⟩ := exists_tableOk_romRead hp hl
  obtain ⟨hlen, hnodup, -⟩ := (tableOk_iff _ _).1 hok
  exact (List.getElem?_inj (by omega) hnodup).1 (by rw [hread a ha, hread b hb, h])

/-- Settles O37: each entry read has passed the check of its table, and no two of a table are equal. -/
theorem readyTableEntries : Obligations.ReadyTableEntries := by
  intro s hp hr a ha
  have hl := wlReady_wlLoaded hr
  obtain ⟨hpos, hmax, hspace, -⟩ := (entryOk_iff _ _).1 (romRead_entryOk hp hl ha)
  obtain ⟨-, ⟨-, h32⟩, -⟩ := (platform_ok_iff _).1 hp
  exact ⟨hpos, hmax, h32, hspace, fun b hb hne heq => hne (romRead_inj hp hl ha hb heq)⟩

/-- A table that is not loaded, or passes its check, stays as it is. -/
theorem checkTable_of_tableOk {m : Nat} {t : WordTable} (h : t.loaded = true → tableOk m t = true) :
    Platform.checkTable m t = t := by
  have hld : (t.loaded && tableOk m t) = t.loaded := by simpa using h
  rw [Platform.checkTable, hld]

/-- Every part of the boot check leaves a well-formed platform alone: the ranges hold, and every table passes. -/
theorem checked_of_ok {p : Platform} (hp : p.ok = true) : p.checked = p := by
  obtain ⟨⟨hpos, h256⟩, ⟨h1, h32⟩, htables⟩ := (platform_ok_iff p).1 hp
  have hmax : max 1 (min 32 p.wordMax) = p.wordMax := by omega
  have hne : p.tables ≠ [] := List.ne_nil_of_length_pos hpos
  have hmap : p.tables.map (Platform.checkTable p.wordMax) = p.tables :=
    (List.map_congr_left fun t ht => checkTable_of_tableOk (htables t ht)).trans (List.map_id _)
  simp only [Platform.checked, hmax, hne, ↓reduceIte, List.take_of_length_le h256, hmap]

/-- Settles O38: what the check leaves, and what it does to a platform that needs none. -/
theorem bootCheckKeepsEveryWellFormedPlatform : Obligations.BootCheckKeepsEveryWellFormedPlatform :=
  fun p => ⟨checked_ok p, checked_of_ok⟩

/-- A perform step keeps the configuration (43_wordlist.md R170). -/
theorem perform_cfg {s t : State} (h : perform s = .next t) : t.cfg = s.cfg := by
  rcases perform_cases h with ⟨i, -, rfl⟩ | ⟨w, -, rfl⟩
  · obtain ⟨-, -, -, -, hcfg, -⟩ := commandFrames i s _ (exec_eq i s)
    exact hcfg
  · rfl

/-- A host move keeps the configuration, reset among them (43_wordlist.md R170, 44_host_encoder.md R198). -/
theorem hostMove_cfg {m : HostMove} {s t : State} (h : hostMove m s = .next t) : t.cfg = s.cfg := by
  rcases hostMove_cases h with ⟨d, x, rfl⟩ | ⟨r, v, x, rfl⟩ | rfl | rfl
  · rfl
  · exact (busWrite_frame s r v).1
  · rfl
  · rfl

/-- Settles O52: neither agent writes the configuration. -/
theorem configurationNeverChanges : Obligations.ConfigurationNeverChanges := by
  intro s t h
  rcases step_cases h with ⟨-, hperform⟩ | ⟨-, -, rfl⟩ | ⟨m, rest, -, hmove⟩
  · exact perform_cfg hperform
  · rfl
  · rw [hostMove_cfg hmove]

end Sys2Proof.Machine

/-! ## generateMnemonic: the errors (44_host_encoder.md R190, R191, R193, R195)

The state after the write of LEN, the state after the write of ENT, and where the sequence stops from each. -/

namespace Sys2Proof.Machine

/-- The host has written the strength to LEN of an idle block (44_host_encoder.md R191). -/
def State.withStrength (s : State) (b : Word) : State := { s with len := b, csValid := false, idxValid := false }

/-- The host has written the strength and then its entropy (44_host_encoder.md R191). -/
def State.withEntropy (s : State) (b : Word) (e : List Byte) : State := { s.withStrength b with ent := packBytes e }

theorem busWrite_len_eq_withStrength {s : State} (hb : s.busy = false) (b : Word) :
    s.busWrite .len b = s.withStrength b := busWrite_len_idle b hb

theorem fillEntropy_withStrength {s : State} (hb : s.busy = false) (b : Word) (e : List Byte) :
    (s.withStrength b).fillEntropy e = s.withEntropy b e := fillEntropy_eq (s.withStrength b) hb e

/-- What the host reads of an error, in STATUS.ERR and STATUS.ERRCODE (44_host_encoder.md R191). -/
theorem reportedError_eq (s : State) : s.reportedError = if s.err then some (.block s.errCode) else none := by
  have hread : (s.busRead .status).1 = s.statusWord := by simp [State.busRead, inWriteSet, State.regValue]
  have herr : s.statusWord.getLsbD 2 = s.err := by rw [statusWord_getLsbD]; simp
  rw [State.reportedError, hread, herr, statusWord_extract_errCode]

/-- The host reads the code of an error that a command has raised (60_exceptions.md R211). -/
theorem reportedError_raiseError (s : State) (fail : State → State) (e : ErrCode) :
    (s.raiseError fail e).reportedError = some (.block e.code) := reportedError_eq _

/-- A loop whose first lookup fails ends with the error of that lookup (44_host_encoder.md R191, R193). -/
theorem lookupWords_of_error {i : Nat} {is : List Nat} {s t : State} {e : HostError}
    (h : s.command (encode (.lookup i)) = .next t) (he : t.reportedError = some e) :
    lookupWords (i :: is) s = .next (t, .error e) := by
  simp only [lookupWords, h, andThen, he]

/-- The host reads NWORDS of an idle block as it is (20_memory.md R63). -/
theorem busRead_nWords_toNat {s : State} (hb : s.busy = false) : (s.busRead .nWords).1.toNat = s.nWords.toNat := by
  rw [busRead_idle hb]
  exact BitVec.toNat_setWidth_of_le (by decide)

/-- The loop of generateMnemonic starts with position 0 (44_host_encoder.md R191). -/
theorem lookupWords_range_of_error {n : Nat} {s t : State} {e : HostError} (hn : 0 < n)
    (h : s.command (encode (.lookup 0)) = .next t) (he : t.reportedError = some e) :
    lookupWords (List.range n) s = .next (t, .error e) := by
  obtain ⟨m, rfl⟩ := Nat.exists_eq_add_one.2 hn
  rw [List.range_succ_eq_map]
  exact lookupWords_of_error h he

/-- LOOKUP in its synchronous form without a ready table (43_wordlist.md R175). -/
theorem command_lookup_of_not_wlReady {s : State} {i : Nat} (hb : s.busy = false) (hv : s.idxValid = true)
    (hn : i < s.nWords.toNat) (h : i < 24) (hr : s.wlReady = false) : s.command (encode (.lookup i)) =
      .next ((s.issue (encode (.lookup i))).raiseError State.clearWord .wordlistNotLoaded) :=
  (command_encode_eq_exec hb ((wellFormed_iff (.lookup i)).2 (h.trans (by decide)))).trans
    (exec_lookup_of_error (lookupBody_of_not_wlReady hv hn h hr))

section
variable {check : Bool} {b : Word} {source : Nat → Option (List Byte)} {s t : State}

/-- A host that checks the strength first stops after the write of LEN (44_host_encoder.md R191). -/
theorem generateWords_of_failed_check (hb : s.busy = false) (hc : check = true) (hv : validLen b = false) :
    generateWords check b source s = .next (s.withStrength b, .error (.block 0x1)) := by
  simp only [generateWords, busWrite_len_eq_withStrength hb, hc, hv, Bool.not_false, Bool.and_self, ↓reduceIte]
  rfl

/-- The check of the strength stops no host that does not make it and no valid strength (44_host_encoder.md R191). -/
theorem check_passes (hc : check = false ∨ validLen b = true) : (check && !validLen b) = false := by
  rcases hc with hc | hc <;> simp [hc]

/-- A source that fails stops the sequence after the write of LEN (44_host_encoder.md R190). -/
theorem generateWords_of_failed_source (hb : s.busy = false) (hc : check = false ∨ validLen b = true)
    (hs : source (b.toNat / 8) = none ∨ ∃ e, source (b.toNat / 8) = some e ∧ e.length ≠ b.toNat / 8) :
    generateWords check b source s = .next (s.withStrength b, .error .randomSourceFailure) := by
  simp only [generateWords, busWrite_len_eq_withStrength hb, check_passes hc, Bool.false_eq_true, ↓reduceIte]
  rcases hs with hs | ⟨e, hs, hlen⟩
  · simp only [hs]
  · simp only [hs, hlen, ne_eq, not_false_eq_true, ↓reduceIte]

/-- Past the check and the source, an error of ENCODE stops the sequence (44_host_encoder.md R191). -/
theorem generateWords_of_encode_error {e : List Byte} {r : HostError} (hb : s.busy = false)
    (hc : check = false ∨ validLen b = true) (hs : source (b.toNat / 8) = some e) (hlen : e.length = b.toNat / 8)
    (ht : (s.withEntropy b e).command (encode .encode) = .next t) (hr : t.reportedError = some r) :
    generateWords check b source s = .next (t, .error r) := by
  simp only [generateWords, busWrite_len_eq_withStrength hb, check_passes hc, hs, hlen, fillEntropy_withStrength hb, ht,
    hr, andThen, Bool.false_eq_true, ne_eq, not_true_eq_false, ↓reduceIte]

/-- Past ENCODE, an error of the lookups stops the sequence (44_host_encoder.md R191). -/
theorem generateWords_of_lookup_error {e : List Byte} {r : HostError} {u : State} (hb : s.busy = false)
    (hc : check = false ∨ validLen b = true) (hs : source (b.toNat / 8) = some e) (hlen : e.length = b.toNat / 8)
    (ht : (s.withEntropy b e).command (encode .encode) = .next t) (hr : t.reportedError = none)
    (hu : lookupWords (List.range (t.busRead .nWords).1.toNat) t = .next (u, .error r)) :
    generateWords check b source s = .next (u, .error r) := by
  simp only [generateWords, busWrite_len_eq_withStrength hb, check_passes hc, hs, hlen, fillEntropy_withStrength hb, ht,
    hr, hu, andThen, Bool.false_eq_true, ne_eq, not_true_eq_false, ↓reduceIte]

/-- An error ends generateMnemonic with that error and no phrase (44_host_encoder.md R193). -/
theorem generateMnemonic_of_error {r : HostError} (h : generateWords check b source s = .next (t, .error r)) :
    generateMnemonic check b source s = .next (t, .error r) := by
  simp only [generateMnemonic, h, andThen, Except.map]

end

/-- ENCODE after an invalid strength raises InvalidEntropyLength (42_slicer.md R155). -/
theorem command_encode_of_invalid_strength {s : State} {b : Word} (e : List Byte) (hb : s.busy = false)
    (hv : validLen b = false) : (s.withEntropy b e).command (encode .encode) =
      .next (((s.withEntropy b e).issue (encode .encode)).raiseError State.clearDerived .invalidEntropyLength) :=
  (command_encode_eq_exec (s := s.withEntropy b e) hb rfl).trans (exec_invalidLen (.inr rfl) hv)

/-- The block after ENCODE of a valid strength, as the lookups find it: no error, a valid index and at least one group
(42_slicer.md R155). -/
theorem command_encode_of_valid_strength {s : State} {b : Word} (e : List Byte) (hb : s.busy = false)
    (hv : validLen b = true) : ∃ t, (s.withEntropy b e).command (encode .encode) = .next t ∧
      t.reportedError = none ∧ t.busy = false ∧ t.idxValid = true ∧ 0 < t.nWords.toNat ∧ t.wlReady = s.wlReady := by
  have hexec := exec_encode_valid (s := (s.withEntropy b e).issue (encode .encode)) hv
  obtain ⟨hpos, h24⟩ := groupCount_bounds_of_validLen hv
  rw [groupCount_of_validLen hv] at hpos h24
  refine ⟨_, (command_encode_eq_exec (s := s.withEntropy b e) hb rfl).trans hexec, reportedError_eq _, rfl, rfl, ?_,
    rfl⟩
  rw [State.complete_nWords, writeIndices_nWords_toNat]
  exacts [hpos, h24]

/-- Settles O59: the sequence stops at the check, at ENCODE, at the first lookup, or at the source. -/
theorem generateMnemonicReportsErrors : Obligations.GenerateMnemonicReportsErrors := by
  intro check s b source hb
  refine ⟨fun hc hv => ?_, fun e hc hv hs hlen => ?_, fun e hv hr hs hlen => ?_, fun hc hs => ?_⟩
  · exact ⟨_, generateMnemonic_of_error (generateWords_of_failed_check hb hc hv), rfl⟩
  · have ht := command_encode_of_invalid_strength e hb hv
    exact ⟨_, generateMnemonic_of_error
      (generateWords_of_encode_error hb (.inl hc) hs hlen ht (reportedError_raiseError _ _ _)),
      rfl, rfl, rfl, rfl, rfl, rfl, rfl⟩
  · obtain ⟨t, ht, hnone, htb, hidx, hpos, hwl⟩ := command_encode_of_valid_strength e hb hv
    have hcommand := command_lookup_of_not_wlReady htb hidx hpos (by decide) (hwl.trans hr)
    rw [← busRead_nWords_toNat htb] at hpos
    have hloop := lookupWords_range_of_error hpos hcommand (reportedError_raiseError _ _ _)
    exact ⟨_, generateMnemonic_of_error (generateWords_of_lookup_error hb (.inr hv) hs hlen ht hnone hloop),
      rfl, rfl, rfl, rfl⟩
  · exact ⟨_, generateMnemonic_of_error (generateWords_of_failed_source hb hc hs), rfl⟩

end Sys2Proof.Machine

/-! ## generateMnemonic: the phrase (44_host_encoder.md R191, R192, R195, R197)

ENCODE leaves the groups of X, every lookup reads the entry at its group and keeps the groups, and CLEAR zeroises what
they leave. -/

namespace Sys2Proof.Machine

/-- The idle block holds `n` valid groups, and `w i` is the entry of the selected table, which is ready, at group `i`:
what ENCODE leaves and every LOOKUP keeps (42_slicer.md R155, 43_wordlist.md R175). -/
structure HoldsGroups (s : State) (n : Nat) (w : Nat → List Byte) : Prop where
  cfg_ok    : s.cfg.ok = true
  idle      : s.busy = false
  ready     : s.wlReady = true
  idx_valid : s.idxValid = true
  count     : s.nWords.toNat = n
  count_le  : n ≤ 24
  entry     : ∀ i (h : i < 24), i < n → s.cfg.romRead s.lang.toNat s.idx[i].toNat = w i

/-- The host reads of an idle block the first WLEN bytes of WORD (44_host_encoder.md R191). -/
theorem readWordBytes_idle {s : State} (hb : s.busy = false) :
    s.readWordBytes = (bytesOfArray s.word).take s.wLen.toNat := by
  have hlen : (s.wLen.setWidth 32).toNat = s.wLen.toNat := BitVec.toNat_setWidth_of_le (by decide)
  simp only [State.readWordBytes, busRead_idle hb, State.regValue, hlen]
  congr 2
  ext k hk
  simp

/-- After a LoadWord from a ready table the host reads the entry itself, which fits WORD (43_wordlist.md R171, R174). -/
theorem readWordBytes_loadWord {s : State} (hp : s.cfg.ok = true) (hr : s.wlReady = true) (a : BitVec 11) :
    (s.loadWord a).complete.readWordBytes = s.cfg.romRead s.lang.toNat a.toNat := by
  obtain ⟨-, hmax, h32⟩ := romRead_length hp hr a
  obtain ⟨hlen, hword, -⟩ := loadedWordIsTheEntry s a _ rfl (hmax.trans h32)
  rw [readWordBytes_idle rfl, State.complete_word, State.complete_wLen, hlen, hword]

/-- LOOKUP i in its synchronous form: no error, the entry at group `i` to read, and the groups kept (43_wordlist.md
R175). -/
theorem HoldsGroups.command_lookup {s : State} {n i : Nat} {w : Nat → List Byte} (hs : HoldsGroups s n w)
    (hi : i < n) :
    ∃ t, s.command (encode (.lookup i)) = .next t ∧ t.reportedError = none ∧ t.readWordBytes = w i ∧
      HoldsGroups t n w ∧ t.len = s.len ∧ t.lang = s.lang := by
  obtain ⟨hp, hb, hr, hv, hcount, hle, hentry⟩ := hs
  have h24 : i < 24 := by omega
  have hexec := exec_lookup_of_checks (s := s.issue (encode (.lookup i))) hv (hcount ▸ hi) h24 hr
  have hread := readWordBytes_loadWord (s := s.issue (encode (.lookup i))) hp hr s.idx[i]
  exact ⟨_, (command_encode_eq_exec hb ((wellFormed_iff (.lookup i)).2 (h24.trans (by decide)))).trans hexec,
    reportedError_eq _, hread.trans (hentry i h24 hi), ⟨hp, rfl, hr, hv, hcount, hle, hentry⟩, rfl, rfl⟩

/-- The loop of lookups returns the entries at its positions (44_host_encoder.md R191). -/
theorem HoldsGroups.lookupWords_eq {n : Nat} {w : Nat → List Byte} {is : List Nat} {s : State}
    (hs : HoldsGroups s n w) (his : ∀ i ∈ is, i < n) :
    ∃ t, lookupWords is s = .next (t, .ok (is.map w)) ∧ t.busy = false ∧ t.len = s.len ∧ t.lang = s.lang := by
  induction is generalizing s with
  | nil => exact ⟨s, rfl, hs.idle, rfl, rfl⟩
  | cons i is ih =>
    obtain ⟨hi, his⟩ := List.forall_mem_cons.1 his
    obtain ⟨t, ht, hnone, hread, hgroups, hlen, hlang⟩ := hs.command_lookup hi
    obtain ⟨u, hu, hub, hulen, hulang⟩ := ih hgroups his
    refine ⟨u, ?_, hub, hulen.trans hlen, hulang.trans hlang⟩
    simp only [lookupWords, ht, hnone, hu, hread, andThen, Except.map, List.map_cons]

/-- The entropy bytes of the block are those the host has written (41_checksum.md R121). -/
theorem entBytes_withEntropy (s : State) {b : Word} {e : List Byte} (hv : validLen b = true)
    (hlen : e.length = b.toNat / 8) : (s.withEntropy b e).entBytes = e := by
  obtain ⟨-, -, h256⟩ := (validLen_iff_multiple b).1 hv
  have htake := take_bytesOfArray_packBytes e (by omega)
  rwa [hlen] at htake

/-- ENCODE on a valid LEN leaves the groups of X (42_slicer.md R150, R155). -/
theorem exec_encode_holdsGroups {s : State} {n x : Nat} (hp : s.cfg.ok = true) (hr : s.wlReady = true)
    (hv : validLen s.len = true) (hn : n = (s.len.toNat + s.len.toNat / 32) / 11)
    (hx : x = intBE s.entBytes * 2 ^ (s.len.toNat / 32) + (checksumBits (sha256 s.entBytes) (s.len.toNat / 32)).toNat) :
    ∃ t, exec .encode s = .next t ∧ t.err = s.err ∧
      HoldsGroups t n (fun k => s.cfg.romRead s.lang.toNat (x / 2 ^ (11 * (n - 1 - k)) % 2048)) ∧
      t.len = s.len ∧ t.lang = s.lang := by
  have hexec := exec_encode_valid hv
  have hvalue := (extendedValue_writeChecksum hv).trans hx.symm
  have h24 : n ≤ 24 := hn ▸ (groupCount_bounds_of_validLen hv).2
  rw [← groupCount_of_validLen hv, ← hn] at hexec
  have hcount := writeIndices_nWords_toNat (s.writeChecksum (checksumLen s.len)) h24
  refine ⟨_, hexec, rfl, ⟨hp, rfl, hr, rfl, hcount, h24, fun i h hi => ?_⟩, rfl, rfl⟩
  have hidx := writeIndices_idx_toNat (s.writeChecksum (checksumLen s.len)) (k := ⟨i, h⟩) hi
  rw [hvalue] at hidx
  exact congrArg (s.cfg.romRead s.lang.toNat) hidx

/-- ENCODE of a valid strength and its entropy leaves no error and the groups of X (44_host_encoder.md R191). -/
theorem command_encode_holdsGroups {s : State} {b : Word} {e : List Byte} {n x : Nat} (hb : s.busy = false)
    (hp : s.cfg.ok = true) (hr : s.wlReady = true) (hv : validLen b = true) (hlen : e.length = b.toNat / 8)
    (hn : n = (b.toNat + b.toNat / 32) / 11)
    (hx : x = intBE e * 2 ^ (b.toNat / 32) + (checksumBits (sha256 e) (b.toNat / 32)).toNat) :
    ∃ t, (s.withEntropy b e).command (encode .encode) = .next t ∧ t.reportedError = none ∧
      HoldsGroups t n (fun k => s.cfg.romRead s.lang.toNat (x / 2 ^ (11 * (n - 1 - k)) % 2048)) ∧
      t.len = b ∧ t.lang = s.lang := by
  rw [← entBytes_withEntropy s hv hlen] at hx
  obtain ⟨t, ht, herr, hgroups, htlen, htlang⟩ :=
    exec_encode_holdsGroups (s := (s.withEntropy b e).issue (encode .encode)) hp hr hv hn hx
  refine ⟨t, (command_encode_eq_exec (s := s.withEntropy b e) hb rfl).trans ht, ?_, hgroups, htlen, htlang⟩
  rw [reportedError_eq, herr, State.issue_err, if_neg Bool.false_ne_true]

section
variable {check : Bool} {b : Word} {source : Nat → Option (List Byte)} {s t u v : State}

/-- Past ENCODE and the lookups, CLEAR ends the sequence with the words (44_host_encoder.md R191). -/
theorem generateWords_of_words {e : List Byte} {ws : List (List Byte)} (hb : s.busy = false)
    (hc : check = false ∨ validLen b = true) (hs : source (b.toNat / 8) = some e) (hlen : e.length = b.toNat / 8)
    (ht : (s.withEntropy b e).command (encode .encode) = .next t) (hr : t.reportedError = none)
    (hu : lookupWords (List.range (t.busRead .nWords).1.toNat) t = .next (u, .ok ws))
    (hclear : u.command (encode .clear) = .next v) :
    generateWords check b source s = .next (v, .ok ws) := by
  simp only [generateWords, busWrite_len_eq_withStrength hb, check_passes hc, hs, hlen, fillEntropy_withStrength hb, ht,
    hr, hu, hclear, andThen, Bool.false_eq_true, ne_eq, not_true_eq_false, ↓reduceIte]

/-- The words end generateMnemonic with their phrase (44_host_encoder.md R191, R192). -/
theorem generateMnemonic_of_words {ws : List (List Byte)} (h : generateWords check b source s = .next (t, .ok ws)) :
    generateMnemonic check b source s = .next (t, .ok (phrase ws)) := by
  simp only [generateMnemonic, h, andThen, Except.map]

end

/-- CLEAR in its synchronous form on an idle block (40_sequencer.md R107). -/
theorem command_clear {s : State} (hb : s.busy = false) : s.command (encode .clear) =
    .next { s.issue (encode .clear) with ent := Vector.replicate 8 0 }.clearDerived.clearWord.complete :=
  (command_encode_eq_exec hb rfl).trans (exec_clear _)

/-- The number of words of each valid strength (42_slicer.md R152). -/
theorem groupCount_mem_of_validLen {l : Word} (h : validLen l = true) :
    (l.toNat + l.toNat / 32) / 11 ∈ [12, 15, 18, 21, 24] := by
  rcases (validLen_iff l).1 h with h | h | h | h | h <;> simp [h]

/-- Settles O58: ENCODE, the lookups and CLEAR in turn, each of them without an error. -/
theorem generateMnemonicIsCorrect : Obligations.GenerateMnemonicIsCorrect := by
  rintro check s b source e _ n x ws hb hp hr hv hs hlen rfl hn hx hws
  obtain ⟨t, ht, hnone, hgroups, htlen, htlang⟩ := command_encode_holdsGroups hb hp hr hv hlen hn hx
  obtain ⟨u, hu, hub, hulen, hulang⟩ := hgroups.lookupWords_eq (is := List.range n) fun _ => List.mem_range.1
  rw [← hws, ← hgroups.count, ← busRead_nWords_toNat hgroups.idle] at hu
  have hwords := generateWords_of_words (check := check) hb (.inr hv) hs hlen ht hnone hu (command_clear hub)
  refine ⟨?_, ?_, _, generateMnemonic_of_words hwords, rfl, rfl, rfl, rfl, rfl, rfl, rfl, rfl, rfl, rfl, rfl, rfl,
    rfl, rfl, hulen.trans htlen, hulang.trans htlang⟩
  · rw [hws, List.length_map, List.length_range]
  · rw [hn]
    exact groupCount_mem_of_validLen hv

end Sys2Proof.Machine

/-! ## What a failed command reports and leaves (60_exceptions.md R211, R212, R214)

A body that succeeds writes neither ERR nor ERRCODE, so an error that shows after a perform step is one that the body
raised: what is left is what each body raises, and what `Fail` makes of it. -/

namespace Sys2Proof.Machine

theorem Writes.err {i : Instr} {s u : State} (h : Writes s i u) : u.err = s.err := by
  cases h <;> simp

theorem Writes.errCode {i : Instr} {s u : State} (h : Writes s i u) : u.errCode = s.errCode := by
  cases h <;> simp

/-- The reachable column of 60_exceptions.md R212. -/
def errorRow : Instr → List ErrCode
  | .nop | .clear => []
  | .checksum | .encode => [.invalidEntropyLength]
  | .extract => [.sequenceError]
  | .lookup _ => [.sequenceError, .indexOutOfRange, .wordlistNotLoaded]
  | .rdrom _ => [.indexOutOfRange, .wordlistNotLoaded]

theorem mem_errorRow_of_lookupBody {i : Nat} {s : State} {e : ErrCode} (h : lookupBody i s = .error e) :
    e ∈ errorRow (.lookup i) := by
  rcases lookupBody_cases i s with ⟨_, hr⟩ | ⟨_, _, hr⟩ | ⟨_, _, _, hr⟩ | ⟨_, _, _, hr⟩
  · cases hr.symm.trans h; simp [errorRow]
  · cases hr.symm.trans h; simp [errorRow]
  · cases hr.symm.trans h; simp [errorRow]
  · cases hr.symm.trans h

theorem mem_errorRow_of_rdromBody {a : Nat} {s : State} {e : ErrCode} (h : rdromBody a s = .error e) :
    e ∈ errorRow (.rdrom a) := by
  rcases rdromBody_cases a s with ⟨_, hr⟩ | ⟨_, _, hr⟩ | ⟨_, _, hr⟩
  · cases hr.symm.trans h; simp [errorRow]
  · cases hr.symm.trans h; simp [errorRow]
  · cases hr.symm.trans h

/-- EXTRACT's checks on the lengths pass on a state of a run, as `extractBody_sound` says, so only its first check can
fail (42_slicer.md R151, R152). -/
theorem mem_errorRow_of_extractBody {s : State} {e : ErrCode} (hi : Inv s) (h : extractBody s = .error e) :
    e ∈ errorRow .extract := by
  have hsound : SoundResult (.error e) := h ▸ extractBody_sound hi
  rcases extractBody_cases s with ⟨_, hr⟩ | ⟨_, _, _, _, hr⟩ | ⟨_, _, hr⟩
  · cases hr.symm.trans h; simp [errorRow]
  · cases hr.symm.trans h
  · cases hr.symm.trans h; exact absurd rfl hsound.1

/-- On a state of a run a body raises only the errors of its row of 60_exceptions.md R212. -/
theorem mem_errorRow_of_bodyOf {i : Instr} {s : State} {e : ErrCode} (hi : Inv s)
    (h : bodyOf i s = .error e) : e ∈ errorRow i := by
  cases i with
  | nop | clear => cases h
  | checksum =>
    cases hv : validLen s.len with
    | false => cases (checksumBody_invalid hv).symm.trans h; simp [errorRow]
    | true => cases (checksumBody_valid hv).symm.trans h
  | encode =>
    cases hv : validLen s.len with
    | false => cases (encodeBody_invalid hv).symm.trans h; simp [errorRow]
    | true => cases (encodeBody_valid hv).symm.trans h
  | extract => exact mem_errorRow_of_extractBody hi h
  | lookup i => exact mem_errorRow_of_lookupBody h
  | rdrom a => exact mem_errorRow_of_rdromBody h

/-- ERRCODE after a command is 0 or the code of an error of its row (60_exceptions.md R212). -/
theorem errCode_mem_of_exec {i : Instr} {s t : State} (hi : Inv s) (hb : s.busy = true) (h : exec i s = .next t) :
    t.errCode ∈ 0x0#4 :: (errorRow i).map ErrCode.code := by
  rcases exec_cases h with ⟨u, hu, rfl⟩ | ⟨e, he, rfl⟩
  · obtain ⟨_, _, hclear⟩ := hi.busy_clear hb
    simp [(writes_of_bodyOf_ok hu).errCode, hclear]
  · exact List.mem_cons_of_mem _ (List.mem_map_of_mem (mem_errorRow_of_bodyOf hi he))

/-- Settles O24: the codes of each row of `errorRow`, written out. -/
theorem reachableErrors : Obligations.ReachableErrors := by
  intro i s t hi hb h
  have hcode := errCode_mem_of_exec hi hb h
  cases i <;> exact hcode

/-- An error that shows after a command whose issue cleared ERR was raised by its body, and has the effect of `Fail`
(60_exceptions.md R211). -/
theorem raised_of_exec_err {i : Instr} {s t : State} (hs : s.err = false) (h : exec i s = .next t)
    (ht : t.err = true) : ∃ e, bodyOf i s = .error e ∧ t = s.raiseError (failOf i) e := by
  rcases exec_cases h with ⟨u, hu, rfl⟩ | hraise
  · simp [(writes_of_bodyOf_ok hu).err, hs] at ht
  · exact hraise

/-- Settles O25: the error was raised by the body, whose own writes are gone, or by the illegal word; `Fail` of each
kind is written out. -/
theorem failureLeavesNoPartialResult : Obligations.FailureLeavesNoPartialResult := by
  intro s t hs h ht
  cases hd : decode s.pend with
  | error w =>
    rw [perform_of_illegal hd] at h
    cases h
    rfl
  | ok i =>
    rw [perform_of_decode hd] at h
    obtain ⟨e, he, rfl⟩ := raised_of_exec_err hs h ht
    cases i with
    | nop | clear => cases he
    | checksum | extract | encode | lookup | rdrom => rfl

end Sys2Proof.Machine

/-! ## Reset (70_reset_and_hazards.md R230, R231, R233) -/

namespace Sys2Proof.Machine

/-- A reset asserted in any state, and the state a run starts from, are both what `resetBlock` makes of some state: a
second reset changes nothing of the state after reset. -/
theorem exists_eq_resetBlock {s t : State} (h : hostMove .reset s = .next t ∨ t = State.reset) :
    ∃ u : State, t = u.resetBlock := by
  rcases h with hmove | rfl
  · exact ⟨s, (Host.Outcome.next.inj hmove).symm⟩
  · exact ⟨State.reset, rfl⟩

/-- Settles O48, from the value of each field after `resetBlock`. -/
theorem resetLoadsZeroEverywhere : Obligations.ResetLoadsZeroEverywhere := by
  intro s t h
  obtain ⟨u, rfl⟩ := exists_eq_resetBlock h
  simp

/-- Settles O50: the boot check leaves a well-formed platform, and the state after reset on one meets the invariant. -/
theorem resetMeetsTheInvariant : Obligations.ResetMeetsTheInvariant := Inv.afterReset (checked_ok Config.platform)

/-- LANG is 0 after reset, and a well-formed platform has a table 0 (10_state.md R39). -/
theorem wlReady_afterReset {p : Platform} (hp : p.ok = true) : (State.afterReset p).wlReady = p.wlLoaded 0 := by
  obtain ⟨⟨hpos, -⟩, -⟩ := (platform_ok_iff p).1 hp
  have hlang : 0 < p.nLang := hpos
  simp [State.wlReady, State.afterReset, hlang]

/-- WL_READY is the one field of STATUS that reset does not clear: it is computed, not stored. -/
theorem statusWord_afterReset (p : Platform) :
    (State.afterReset p).statusWord = flagBit (State.afterReset p).wlReady <<< 11 := by
  simp [State.statusWord, State.afterReset, flagBit]

/-- Settles O49: STATUS is WL_READY in its place, and WL_READY says whether table 0 is loaded. -/
theorem statusAfterReset : Obligations.StatusAfterReset := by
  intro p hp
  rw [statusWord_afterReset, wlReady_afterReset hp]
  cases p.wlLoaded 0 <;> rfl

end Sys2Proof.Machine

/-! ## Reads while BUSY (70_reset_and_hazards.md R235) -/

namespace Sys2Proof.Machine

/-- The registers of the derived values: DIG, CSUM, NWORDS and IDX. -/
def Reg.IsDerived (r : Reg) : Prop := (∃ k, r = .dig k) ∨ r = .csum ∨ r = .nWords ∨ ∃ k, r = .idx k

/-- The registers of the word read: WIDX, WLEN and WORD. -/
def Reg.IsWordRead (r : Reg) : Prop := r = .wIdx ∨ r = .wLen ∨ ∃ k, r = .word k

/-- The rows of the table of write sets, read by command (70_reset_and_hazards.md R235); `inWriteSet` reads it by
register. -/
def WriteSetRow (op : Except Illegal Instr) (r : Reg) : Prop :=
  match op with
  | .ok .nop | .error _ => False
  | .ok .clear => (∃ k, r = .ent k) ∨ r.IsDerived ∨ r.IsWordRead
  | .ok .checksum | .ok .extract | .ok .encode => r.IsDerived
  | .ok (.lookup _) | .ok (.rdrom _) => r.IsWordRead

/-- The two readings of the table agree. -/
theorem inWriteSet_iff (op : Except Illegal Instr) (r : Reg) : inWriteSet op r = true ↔ WriteSetRow op r := by
  cases op with
  | error why => cases r <;> simp [inWriteSet, WriteSetRow]
  | ok i =>
    cases i with
    | nop => cases r <;> simp [inWriteSet, WriteSetRow]
    | clear => cases r <;> simp [inWriteSet, WriteSetRow, Reg.IsDerived, Reg.IsWordRead]
    | checksum | extract | encode => cases r <;> simp [inWriteSet, WriteSetRow, Reg.IsDerived]
    | lookup | rdrom => cases r <;> simp [inWriteSet, WriteSetRow, Reg.IsWordRead]

/-- A read of a register that the command in flight may write draws a fresh value. -/
theorem busRead_unspecified {s : State} {r : Reg} (hb : s.busy = true) (h : inWriteSet (decode s.pend) r = true) :
    s.busRead r = (Config.busyRead s.draws, { s with draws := s.draws + 1 }) := by
  simp [State.busRead, hb, h]

/-- Settles O41: the row of the command in flight decides between an unspecified and an exact read. -/
theorem busyReads : Obligations.BusyReads := by
  intro s r hb
  have hiff := inWriteSet_iff (decode s.pend) r
  exact ⟨fun hin => busRead_unspecified hb (hiff.2 hin),
    fun hout => busRead_exact (.inr (Bool.eq_false_iff.2 (mt hiff.1 hout)))⟩

end Sys2Proof.Machine
